-- ==== Sys2Proof/Word.lean ====
section
/-! DEFINITION. The widths of 00_scope.md rule R10: bytes and unsigned 16-bit values. -/

namespace Sys2Proof

/-- `Byte` of rule R10: an unsigned 8-bit value. Also the width of a command word (R47). -/
abbrev Byte := BitVec 8

/-- `u16` of rule R10: an unsigned 16-bit value. -/
abbrev U16 := BitVec 16

/-- A natural number stored back into a u16 register (rule R10). Where a rule stores one, it has
shown that the number fits in 16 bits (R72, R78). -/
def toU16 (n : Nat) : U16 := BitVec.ofNat 16 n

end Sys2Proof
end

