-- ==== Sys2Proof/Syntax.lean ====
section
/-! DEFINITION. The command set (30_encoding.md rule R50), one constructor per row of the opcode table,
and the names of the read registers (20_memory.md rule R41). -/

namespace Sys2Proof

/-- The commands of R50. `openSession` is the table's OPEN, a word Lean keeps for itself. -/
inductive Instr where
  /-- NOP, 44_session_control.md rule R93. -/
  | nop
  /-- OPEN, 44_session_control.md rule R94. -/
  | openSession
  /-- TICK, 44_session_control.md rule R95. -/
  | tick
  /-- SEND, 41_send.md rule R76. -/
  | send
  /-- RECV, 42_ack_receive.md rule R82. -/
  | recv
  /-- TMO, 43_timeout_retransmit.md rule R88. -/
  | tmo
  /-- TERM, 44_session_control.md rule R98. -/
  | term
  /-- RDREG, 44_session_control.md rule R99. The operand is ARG as R49 reads it; `Instr.wf` says which
  values name a register. -/
  | rdreg (n : BitVec 4)
  deriving DecidableEq, Repr

/-- The registers of the read space (R41). -/
inductive ReadReg where
  | status | base | next | window | maxpay | outst
  deriving DecidableEq, Repr

end Sys2Proof
end

