-- ==== Sys2Proof/WellFormed.lean ====
section
/-! DEFINITION. Which instructions have a legal word: an RDREG must name one of the registers 0 to 5
(30_encoding.md rules R51, R52); the other commands have no operand. -/

namespace Sys2Proof

/-- R52: "ARG values 6 to 15 are reserved". -/
def Instr.wf : Instr → Bool
  | .nop => true
  | .openSession => true
  | .tick => true
  | .send => true
  | .recv => true
  | .tmo => true
  | .term => true
  | .rdreg n => decide (n.toNat ≤ 5)

end Sys2Proof
end

