-- ==== Sys2Proof/Decode.lean ====
section
/-! DEFINITION. The decoder of command words, total on every byte and rejecting illegal words by name, and
the encoder (30_encoding.md rules R47 to R54). A command is exactly one byte (R54). -/

namespace Sys2Proof

/-- OP, `cmd[3:0]` (R48). -/
def opField (w : Byte) : BitVec 4 := w.extractLsb' 0 4

/-- ARG, `cmd[7:4]` (R49). -/
def argField (w : Byte) : BitVec 4 := w.extractLsb' 4 4

/-- Why a word is illegal (R51, R52). -/
inductive DecodeError where
  /-- OP in 0x8..0xF, for any ARG. -/
  | reservedOpcode (op : BitVec 4)
  /-- OP in 0x0..0x6 with ARG other than 0. -/
  | nonzeroArg (op arg : BitVec 4)
  /-- RDREG with ARG in 6..15. -/
  | reservedRegister (n : BitVec 4)
  deriving DecidableEq, Repr

/-- A command without operand: ARG must be 0 (R49). -/
def decodePlain (w : Byte) (i : Instr) : Except DecodeError Instr :=
  if argField w = 0#4 then .ok i else .error (.nonzeroArg (opField w) (argField w))

/-- The decoder: the operation from OP alone, then the check of ARG (R48 to R52). -/
def decode (w : Byte) : Except DecodeError Instr :=
  match (opField w).toNat with
  | 0 => decodePlain w .nop
  | 1 => decodePlain w .openSession
  | 2 => decodePlain w .tick
  | 3 => decodePlain w .send
  | 4 => decodePlain w .recv
  | 5 => decodePlain w .tmo
  | 6 => decodePlain w .term
  | 7 => if (argField w).toNat ≤ 5 then .ok (.rdreg (argField w))
         else .error (.reservedRegister (argField w))
  | _ => .error (.reservedOpcode (opField w))

/-- The OP value of each command (the table of R50). -/
def opcodeOf : Instr → BitVec 4
  | .nop => 0x0#4
  | .openSession => 0x1#4
  | .tick => 0x2#4
  | .send => 0x3#4
  | .recv => 0x4#4
  | .tmo => 0x5#4
  | .term => 0x6#4
  | .rdreg _ => 0x7#4

/-- The ARG value of each command (R49). -/
def operandOf : Instr → BitVec 4
  | .nop => 0#4
  | .openSession => 0#4
  | .tick => 0#4
  | .send => 0#4
  | .recv => 0#4
  | .tmo => 0#4
  | .term => 0#4
  | .rdreg n => n

/-- The word of a command: ARG above OP (R47). -/
def encode (i : Instr) : Byte := operandOf i ++ opcodeOf i

/-- The legality test of 44_session_control.md rule R92, on the two fields. -/
def legalWord (w : Byte) : Bool :=
  (decide ((opField w).toNat ≤ 6) && decide (argField w = 0#4)) ||
    (decide ((opField w).toNat = 7) && decide ((argField w).toNat ≤ 5))

/-- One row of the opcode table: a word belongs to it when its bits under `mask` equal `pattern`. -/
structure OpcodeRow where
  mnemonic : String
  mask     : Byte
  pattern  : Byte
  deriving DecidableEq, Repr

/-- opcode_table.json: match and mask of each row. -/
def opcodeTable : List OpcodeRow :=
  [⟨"NOP", 0xFF, 0x00⟩, ⟨"OPEN", 0xFF, 0x01⟩, ⟨"TICK", 0xFF, 0x02⟩, ⟨"SEND", 0xFF, 0x03⟩,
   ⟨"RECV", 0xFF, 0x04⟩, ⟨"TMO", 0xFF, 0x05⟩, ⟨"TERM", 0xFF, 0x06⟩, ⟨"RDREG", 0x0F, 0x07⟩]

/-- The row covers the word. -/
def OpcodeRow.covers (r : OpcodeRow) (w : Byte) : Bool := decide (w &&& r.mask = r.pattern)

/-- The mnemonic of a command, as the table spells it. -/
def Instr.mnemonic : Instr → String
  | .nop => "NOP"
  | .openSession => "OPEN"
  | .tick => "TICK"
  | .send => "SEND"
  | .recv => "RECV"
  | .tmo => "TMO"
  | .term => "TERM"
  | .rdreg _ => "RDREG"

/-- The bits above `nbits` are 0 and a command is one byte: a number of 256 or more is no command word. -/
def tableWord? (nbits w : Nat) : Option Byte :=
  if w % 2 ^ nbits < 256 then some (BitVec.ofNat 8 (w % 2 ^ nbits)) else none

/-- What the decoder reads from an instruction whose bits are `w`, numbered as opcode_table.json does. -/
def decodeTableWord (nbits w : Nat) : Option Instr :=
  match tableWord? nbits w with
  | none => none
  | some b =>
    match decode b with
    | .ok i => some i
    | .error _ => none

end Sys2Proof
end

