-- ==== Sys2Proof/Config.lean ====
section
/-! DEFINITION. What is fixed when the block is built (00_scope.md rules R5 to R7), the datagram record
(30_encoding.md rule R56), and the free values: the environment's draws (R9) and the unspecified ORB
contents (10_state.md rule R32). An `opaque` constant has no body, so no proof can see its value. -/

namespace Sys2Proof

/-- CKSUM_W less one: an OPEN parameter (R5, decision D16). DESIGN CHOICE (log 2), safe. -/
opaque Config.cksumWidthPred : Nat

/-- CKSUM_W, the width of the checksum field, at least 1 (R5, R7). -/
def Config.cksumWidth : Nat := Config.cksumWidthPred + 1

/-- A checksum value: CKSUM_W bits (R6, R56). -/
abbrev Checksum := BitVec Config.cksumWidth

/-- A byte list of length 0 to 65535: the packetizer port carries no other (R60), and no longer list is the
payload of a record, whose `payloadLength` has 16 bits (R56). -/
structure Chunk where
  bytes : List Byte := []
  length_le : bytes.length ≤ 65535 := by decide
  deriving DecidableEq, Repr, Inhabited

/-- The empty chunk. -/
def Chunk.empty : Chunk := ⟨[], by decide⟩

/-- `zext_16` loses nothing of a chunk's length (R60, R63). -/
theorem Chunk.length_eq (c : Chunk) : c.bytes.length = (BitVec.ofNat 16 c.bytes.length).toNat := by
  rw [BitVec.toNat_ofNat, Nat.mod_eq_of_lt (Nat.lt_of_le_of_lt c.length_le (by decide))]

/-- The datagram record of R56: TX port, RX port, ORB slots. The fields stay typed fields: no byte order
or wire layout is given to them (R39). The last one is R56's "A record always satisfies |payload| ==
payloadLength": no other record can be written down, on any port and in any slot. -/
structure Datagram where
  seqNum        : U16
  ackNum        : U16
  checksum      : Checksum
  payloadLength : U16 := 0
  payload       : List Byte := []
  length_eq     : payload.length = payloadLength.toNat := by decide
  deriving DecidableEq, Repr, Inhabited

/-- The checksum function `Ck` of R6: total, deterministic and otherwise uninterpreted (seq, ack, len,
payload). DESIGN CHOICE (log 2), safe. -/
opaque Config.Ck : U16 → U16 → U16 → List Byte → Checksum

/-- The parameters W and M of R5, with the bounds of R7 carried as proofs: a configuration outside them
cannot be written down. -/
structure Params where
  /-- WINDOW_SIZE: the window capacity and the number of ORB slots. -/
  W : Nat
  /-- MAX_PAYLOAD: the most payload bytes of a datagram the block frames. -/
  M : Nat
  W_bounds : 1 ≤ W ∧ W ≤ 65534
  M_bounds : 1 ≤ M ∧ M ≤ 65535
  deriving DecidableEq, Repr

/-- Building a block (R7): "A configuration outside these bounds is not a GBN-SWC, and a model refuses it
when the model is built". -/
def Params.build? (W M : Nat) : Option Params :=
  if h : (1 ≤ W ∧ W ≤ 65534) ∧ (1 ≤ M ∧ M ≤ 65535) then some ⟨W, M, h.1, h.2⟩ else none

/-- W of the block that State.reset describes, less one: every W from 1 to 65534 is possible (R5).
DESIGN CHOICE (log 1), safe. -/
opaque Config.windowPred : Fin 65534

/-- M of the block that State.reset describes, less one: every M from 1 to 65535 is possible (R5).
DESIGN CHOICE (log 1), safe. -/
opaque Config.maxPayPred : Fin 65535

/-- The parameters of the block that State.reset describes: no particular value (decision D17, log 1). -/
def Config.params : Params where
  W := Config.windowPred.val + 1
  M := Config.maxPayPred.val + 1
  W_bounds := ⟨Nat.le_add_left 1 _, Config.windowPred.isLt⟩
  M_bounds := ⟨Nat.le_add_left 1 _, Config.maxPayPred.isLt⟩

/-- A free answer of `stream_ok` (R9: an answer is a draw). DESIGN CHOICE (log 4), safe. -/
opaque Config.drawStreamOk : Nat → Bool

/-- A free chunk of the packetizer, of any length from 0 to 65535 (R60). DESIGN CHOICE (log 4), safe. -/
opaque Config.drawChunk : Nat → Chunk

/-- A free answer of the RX port: none, or any record of R56 (R58). DESIGN CHOICE (log 4), safe. -/
opaque Config.drawRx : Nat → Option Datagram

/-- A free answer of `tmr_expired`. DESIGN CHOICE (log 4), safe. -/
opaque Config.drawExpired : Nat → Bool

/-- The unspecified content of ORB slot `i` after reset number `epoch` (R32, decision D22), a record of R56
like every slot content (R20; log 10). DESIGN CHOICE (log 6), safe. -/
opaque Config.unwrittenSlot (epoch i : Nat) : Datagram

end Sys2Proof
end

