-- ==== Sys2Proof/Machine/State.lean ====
section
/-! DEFINITION. The state of the block (10_state.md), the outputs of its last command (00_scope.md rule R9),
and the model's own input fields: what the host and the collaborators will still deliver. Plain data. -/

namespace Sys2Proof.Machine

/-- The operating mode (R13). A lifecycle state, not a privilege (R117). -/
inductive Mode where
  | idle | active | terminated | faulted
  deriving DecidableEq, Repr

/-- The fault codes (R105). Codes 8 to 15 are reserved and never written (R125), so they have no name. -/
inductive FaultCode where
  | none | fatalOpen | illegalCmd | cmdState | ackRange | seqOverflow | chunkLen | ringOverwrite
  deriving DecidableEq, Repr

/-- The kind tag of a TX event (R57). -/
inductive TxKind where
  | new | retx | term
  deriving DecidableEq, Repr

/-- A timer command (R59, R83). -/
inductive TimerCmd where
  | start | stop
  deriving DecidableEq, Repr

/-- One entry of the merged `(port, value)` list of outputs in program order (R43). -/
inductive PortEvent where
  | tx (kind : TxKind) (d : Datagram)
  | tmr (c : TimerCmd)
  deriving DecidableEq, Repr

/-- What the host delivers: a command word (R47), or a reset between commands (R126). -/
inductive HostInput where
  | cmd (w : Byte)
  | reset
  deriving DecidableEq, Repr

/-- The MODEL's own fields (log 4): the answers the collaborators will give, in the order each port is
asked. A port whose list is empty answers a free value; `draws` counts the answers drawn that way. -/
structure Env where
  streamOk   : List Bool
  chunk      : List Chunk
  rx         : List (Option Datagram)
  tmrExpired : List Bool
  draws      : Nat
  deriving DecidableEq, Repr

/-- The slots of the ORB written since reset, by rising index (R20, R36). A slot not listed holds its
unspecified reset content (R32; log 6). -/
abbrev Orb := List (Nat × Datagram)

structure State where
  /-- W and M, fixed when the block is built (R5). -/
  params         : Params
  /-- R13. -/
  mode           : Mode
  /-- R14. -/
  base           : U16
  /-- R15. -/
  nextSeqNum     : U16
  /-- R16. -/
  allSent        : Bool
  /-- R17. -/
  timerArmed     : Bool
  /-- R18. -/
  faultCode      : FaultCode
  /-- R19. -/
  startedThisCmd : Bool
  /-- R20. -/
  orb            : Orb
  /-- The TX and timer outputs of the most recent command, merged in program order (R9, R43). -/
  events         : List PortEvent
  /-- The read-data output of the most recent command (R62). -/
  rdData         : Option U16
  /-- The MODEL's own field (log 3): what the host will still deliver, oldest first. -/
  host           : List HostInput
  /-- The MODEL's own field (log 4): the collaborators' answers. -/
  env            : Env
  /-- The MODEL's own field (log 6): the number of resets applied. -/
  orbEpoch       : Nat
  deriving DecidableEq, Repr

/-- No reason to stop exists: the step function is total (R9), and a fault of the block is a next state in
mode FAULTED (R106), from which RDREG and reset still work (R101, R127). Log 7, safe. -/
inductive Fault
  deriving DecidableEq, Repr

/-- Why a step has no meaning. -/
inductive Refusal where
  /-- An arm of `exec` that has no meaning yet. No arm raises it: every command is modelled. Safe. -/
  | notModelled (mnemonic : String)
  deriving DecidableEq, Repr

/-- How a phase ends: `go` when it returns, `stop` when a raised fault has ended the command (R11, R106). -/
inductive Flow where
  | go (s : State)
  | stop (s : State)
  deriving DecidableEq, Repr

/-- The block with parameters `p` right after reset (R32, R126): no slot written, no outputs, and (the
model's own fields) nothing delivered and no answer fixed. -/
def State.resetOf (p : Params) : State where
  params         := p
  mode           := .idle
  base           := 0x0001#16
  nextSeqNum     := 0x0001#16
  allSent        := false
  timerArmed     := false
  faultCode      := .none
  startedThisCmd := false
  orb            := []
  events         := []
  rdData         := .none
  host           := []
  env            := ⟨[], [], [], [], 0⟩
  orbEpoch       := 0

/-- The machine right after reset, for parameters no proof can see (R32; log 1). -/
def State.reset : State := State.resetOf Config.params

end Sys2Proof.Machine
end

