-- ==== Sys2Proof/Machine/Ops.lean ====
section
/-! DEFINITION. The shared operations: the ORB (20_memory.md), the outputs and asks (00_scope.md rule R11),
the timer commands (43_timeout_retransmit.md rule R83), the start of a command (44_session_control.md rule
R104), taking a fault (60_exceptions.md rule R106), reset (70_reset_and_hazards.md rule R126), and the
input the host delivers. -/

namespace Sys2Proof.Machine

/-! The ORB -/

/-- The datagram last written to slot `i` since reset, if any. -/
def Orb.read? : Orb → Nat → Option Datagram
  | [], _ => none
  | (j, e) :: rest, i => if i = j then some e else Orb.read? rest i

/-- Slot `i` replaced whole by `d`, indices kept rising (R36). -/
def Orb.write : Orb → Nat → Datagram → Orb
  | [], i, d => [(i, d)]
  | (j, e) :: rest, i, d =>
    if i < j then (i, d) :: (j, e) :: rest
    else if i = j then (i, d) :: rest
    else (j, e) :: Orb.write rest i d

/-- Every listed index is at least `lo` and they rise strictly. -/
def Orb.risingFrom (lo : Nat) : Orb → Bool
  | [] => true
  | (j, _) :: rest => decide (lo ≤ j) && Orb.risingFrom (j + 1) rest

/-- The canonical form: indices strictly rising, each below W (R35, R36). -/
def Orb.wf (W : Nat) (o : Orb) : Bool := Orb.risingFrom 0 o && o.all fun p => decide (p.1 < W)

/-- The slot of sequence number `k`: the natural-number remainder `k mod W` (R37). -/
def slotOf (p : Params) (k : Nat) : Nat := k % p.W

/-- `RingRead(i)` (R36). A slot not written since reset gives its unspecified content (R32; log 6). -/
def State.ringRead (s : State) (i : Nat) : Datagram :=
  match s.orb.read? i with
  | some d => d
  | none => Config.unwrittenSlot s.orbEpoch i

/-- `RingWrite(i, d)` (R36). -/
def State.ringWrite (s : State) (i : Nat) (d : Datagram) : State := { s with orb := s.orb.write i d }

/-! Outputs -/

/-- `Emit(kind, d)` (R11). -/
def State.emit (s : State) (kind : TxKind) (d : Datagram) : State :=
  { s with events := s.events ++ [.tx kind d] }

/-- `TimerCmd(START)` with its flags: `TmuxStart` of R83. -/
def State.tmuxStart (s : State) : State :=
  { s with events := s.events ++ [.tmr .start], timerArmed := true, startedThisCmd := true }

/-- `TimerCmd(STOP)` with its flag: `TmuxStop` of R83. -/
def State.tmuxStop (s : State) : State :=
  { s with events := s.events ++ [.tmr .stop], timerArmed := false }

/-- The TX output of a command: a projection of the merged list (R43). -/
def State.tx (s : State) : List (TxKind × Datagram) :=
  s.events.filterMap fun e => match e with
    | .tx k d => some (k, d)
    | .tmr _ => none

/-- The timer output of a command: a projection of the merged list (R43). -/
def State.tmr (s : State) : List TimerCmd :=
  s.events.filterMap fun e => match e with
    | .tx _ _ => none
    | .tmr c => some c

/-- The 2-bit kind tag (R57). -/
def TxKind.bits : TxKind → BitVec 2
  | .new => 0
  | .retx => 1
  | .term => 2

/-- The 1-bit timer command (R59). -/
def TimerCmd.bits : TimerCmd → BitVec 1
  | .start => 0
  | .stop => 1

/-! Asks (R11): each samples one answer: the next one fixed for the port, or a free value when none is. An
answer not asked for stays where it is (R9, R42). -/

/-- The collaborators after a free answer was drawn (log 4). -/
def Env.drawn (e : Env) : Env := { e with draws := e.draws + 1 }

/-- The answer of `stream_ok`. -/
def Env.askStreamOk (e : Env) : Bool × Env :=
  match e.streamOk with
  | a :: rest => (a, { e with streamOk := rest })
  | [] => (Config.drawStreamOk e.draws, e.drawn)

/-- The packetizer's next chunk. -/
def Env.askChunk (e : Env) : Chunk × Env :=
  match e.chunk with
  | a :: rest => (a, { e with chunk := rest })
  | [] => (Config.drawChunk e.draws, e.drawn)

/-- The transport's answer to one poll. -/
def Env.askRx (e : Env) : Option Datagram × Env :=
  match e.rx with
  | a :: rest => (a, { e with rx := rest })
  | [] => (Config.drawRx e.draws, e.drawn)

/-- The answer of `tmr_expired`. -/
def Env.askExpired (e : Env) : Bool × Env :=
  match e.tmrExpired with
  | a :: rest => (a, { e with tmrExpired := rest })
  | [] => (Config.drawExpired e.draws, e.drawn)

/-- `Ask(stream_ok)` (R61). -/
def State.askStreamOk (s : State) : Bool × State :=
  (s.env.askStreamOk.1, { s with env := s.env.askStreamOk.2 })

/-- `Ask(chunk)` (R60). -/
def State.askChunk (s : State) : Chunk × State :=
  (s.env.askChunk.1, { s with env := s.env.askChunk.2 })

/-- `Ask(rx)` (R58). It always answers (R133; log 16). -/
def State.askRx (s : State) : Option Datagram × State :=
  (s.env.askRx.1, { s with env := s.env.askRx.2 })

/-- `Ask(tmr_expired)` (R59). -/
def State.askExpired (s : State) : Bool × State :=
  (s.env.askExpired.1, { s with env := s.env.askExpired.2 })

/-! Commands -/

/-- The start of every command (R104): `startedThisCmd` cleared, the outputs empty. -/
def State.beginCommand (s : State) : State :=
  { s with startedThisCmd := false, events := [], rdData := none }

/-- Fault entry (R106): the code and the mode, and nothing else (R123). -/
def State.enterFault (s : State) (code : FaultCode) : State :=
  { s with faultCode := code, mode := .faulted }

/-- `raise Fault(code)` (R106): fault entry, and the command ends. -/
def State.raiseFault (s : State) (code : FaultCode) : Flow := .stop (s.enterFault code)

/-- The state a phase ends in. -/
def Flow.state : Flow → State
  | .go s => s
  | .stop s => s

/-- The next phase runs only if none before it raised a fault (R95, R107). -/
def Flow.andThen (f : Flow) (g : State → Flow) : Flow :=
  match f with
  | .go s => g s
  | .stop s => .stop s

/-- The end of a command: a fault of the block is a next state too (R106; log 7). -/
def Flow.outcome (f : Flow) : Host.Outcome State Fault Refusal := .next f.state

/-- The mode check of SEND, RECV and TMO (R76, R82, R88): ignored in FAULTED, CMD_STATE in IDLE and
TERMINATED. -/
def State.whenActive (s : State) (phase : State → Flow) : Flow :=
  match s.mode with
  | .faulted => .go s
  | .active => phase s
  | .idle => s.raiseFault .cmdState
  | .terminated => s.raiseFault .cmdState

/-- An illegal command word (R92): ignored in FAULTED, else ILLEGAL_CMD before any other effect (R51). -/
def State.illegalCommand (s : State) : Flow :=
  let s := s.beginCommand
  match s.mode with
  | .faulted => .go s
  | .idle => s.raiseFault .illegalCmd
  | .active => s.raiseFault .illegalCmd
  | .terminated => s.raiseFault .illegalCmd

/-! Reset and the host's input -/

/-- Reset between commands (R126): the values of R32, no output, no port asked. The parameters and the
inputs still to come are not the block's to change; the slots' contents are unspecified anew (log 11). -/
def State.applyReset (s : State) : State :=
  { State.resetOf s.params with host := s.host, env := s.env, orbEpoch := s.orbEpoch + 1 }

/-- The next thing the host delivers, if any (R47, R126). -/
def State.nextInput (s : State) : Option (HostInput × State) :=
  match s.host with
  | [] => none
  | h :: rest => some (h, { s with host := rest })

/-- The host delivers the command word `w` next. -/
def State.offerCommand (s : State) (w : Byte) : State := { s with host := .cmd w :: s.host }

end Sys2Proof.Machine
end

