-- ==== Sys2Proof/Machine/Flags.lean ====
section
/-! DEFINITION. What is computed from the state and not stored: the derived predicates (00_scope.md rule R12),
PHASE (10_state.md rule R21), the STATUS word (R26) and exit_status (R33). -/

namespace Sys2Proof.Machine

/-- Filling (R12), compared on natural numbers (R10). -/
def State.filling (s : State) : Bool :=
  decide (s.nextSeqNum.toNat < s.base.toNat + s.params.W) && !s.allSent

/-- WindowFull (R12). -/
def State.windowFull (s : State) : Bool :=
  decide (s.nextSeqNum.toNat = s.base.toNat + s.params.W) && !s.allSent

/-- Draining (R12). -/
def State.draining (s : State) : Bool := s.allSent && decide (s.base ≠ s.nextSeqNum)

/-- Done (R12). -/
def State.done (s : State) : Bool := s.allSent && decide (s.base = s.nextSeqNum)

/-- `nextSeqNum - base`: the number of outstanding datagrams (R28), on natural numbers (R10; log 9). -/
def State.outstanding (s : State) : Nat := s.nextSeqNum.toNat - s.base.toNat

/-- The 2-bit encoding of the mode (R13). -/
def Mode.bits : Mode → BitVec 2
  | .idle => 0
  | .active => 1
  | .terminated => 2
  | .faulted => 3

/-- The 4-bit fault code (R105). -/
def FaultCode.bits : FaultCode → BitVec 4
  | .none => 0
  | .fatalOpen => 1
  | .illegalCmd => 2
  | .cmdState => 3
  | .ackRange => 4
  | .seqOverflow => 5
  | .chunkLen => 6
  | .ringOverwrite => 7

/-- PHASE (R21). The value 7 is unreachable while R22 holds. -/
def State.phase (s : State) : BitVec 3 :=
  match s.mode with
  | .idle => 0
  | .terminated => 5
  | .faulted => 6
  | .active =>
    if s.filling then 1
    else if s.windowFull then 2
    else if s.draining then 3
    else if s.done then 4
    else 7

/-- STATUS (R26): `{0000, faultCode, 000, timerArmed, allSent, PHASE}`. Also the STATUS output (R62). -/
def State.statusWord (s : State) : U16 :=
  0#4 ++ s.faultCode.bits ++ 0#3 ++ BitVec.ofBool s.timerArmed ++ BitVec.ofBool s.allSent ++ s.phase

/-- exit_status (R33): a value only in TERMINATED and FAULTED, 1 for every fault code (R122). -/
def State.exitStatus (s : State) : Option (BitVec 1) :=
  match s.mode with
  | .idle => none
  | .active => none
  | .terminated => some 0
  | .faulted => some 1

end Sys2Proof.Machine
end

