-- ==== Sys2Proof/Machine/Operands.lean ====
section
/-! DEFINITION. The one operand form of the command set: RDREG's register index and the register read space
(20_memory.md rule R41, 30_encoding.md rules R49, R52). -/

namespace Sys2Proof.Machine

/-- The register an index names (R41); 6 to 15 are reserved (R52). -/
def regOfIndex (n : BitVec 4) : Option ReadReg :=
  match n.toNat with
  | 0 => some .status
  | 1 => some .base
  | 2 => some .next
  | 3 => some .window
  | 4 => some .maxpay
  | 5 => some .outst
  | _ => none

/-- The index of a register (R41). -/
def indexOfReg : ReadReg → BitVec 4
  | .status => 0
  | .base => 1
  | .next => 2
  | .window => 3
  | .maxpay => 4
  | .outst => 5

/-- The content of a register, read in any mode and without side effect (R26 to R28, R42). -/
def State.readReg (s : State) : ReadReg → U16
  | .status => s.statusWord
  | .base => s.base
  | .next => s.nextSeqNum
  | .window => toU16 s.params.W
  | .maxpay => toU16 s.params.M
  | .outst => toU16 s.outstanding

end Sys2Proof.Machine
end

