-- ==== Sys2Proof/Machine/Framer.lean ====
section
/-! DEFINITION. The datagram framer DFR (40_framer.md): pure functions of their operands and of Ck (R70). -/

namespace Sys2Proof.Machine

/-- `FrameData(seq, bytes)` (R63): ackNum 0 (R64), the checksum over exactly the payload's bytes (R68). -/
def frameData (seq : U16) (c : Chunk) : Datagram where
  seqNum        := seq
  ackNum        := 0x0000#16
  checksum      := Config.Ck seq 0x0000#16 (toU16 c.bytes.length) c.bytes
  payloadLength := toU16 c.bytes.length
  payload       := c.bytes
  length_eq     := c.length_eq

/-- `FrameTerm(seq)` (R65): `FrameData(seq, [])`. -/
def frameTerm (seq : U16) : Datagram := frameData seq Chunk.empty

/-- `AckValid(r)` (R66): the checksum over the received fields matches the carried one in every bit. -/
def ackValid (r : Datagram) : Bool :=
  decide (Config.Ck r.seqNum r.ackNum r.payloadLength r.payload = r.checksum)

/-- `AckNumOf(r)` (R67): the only field of a received datagram the window logic reads. -/
def ackNumOf (r : Datagram) : U16 := r.ackNum

end Sys2Proof.Machine
end

