-- ==== Sys2Proof/Machine/Receive.lean ====
section
/-! DEFINITION. The receive phase (cumulative ACK) and the RECV command (42_ack_receive.md). -/

namespace Sys2Proof.Machine

/-- The timer's part of an advance (R81): STOP when nothing is outstanding, else a restart. -/
def retimeAfterAck (s : State) : State :=
  if s.base = s.nextSeqNum then s.tmuxStop else s.tmuxStart

/-- The receive phase on one received datagram (R77): the discards of R79 before the range check of R80. -/
def processAck (r : Datagram) (s : State) : Flow :=
  if !ackValid r then .go s
  else if (ackNumOf r).toNat < s.base.toNat then .go s
  else if s.nextSeqNum.toNat ≤ (ackNumOf r).toNat then s.raiseFault .ackRange
  else .go (retimeAfterAck { s with base := toU16 ((ackNumOf r).toNat + 1) })

/-- `RecvPhase()` (R77): one poll (R132). -/
def recvPhase (s : State) : Flow :=
  match s.askRx.1 with
  | none => .go s.askRx.2
  | some r => processAck r s.askRx.2

/-- RECV (R82). -/
def execRecv (s : State) : Host.Outcome State Fault Refusal :=
  (s.beginCommand.whenActive recvPhase).outcome

end Sys2Proof.Machine
end

