-- ==== Sys2Proof/Machine/Send.lean ====
section
/-! DEFINITION. The send phase and the SEND command (41_send.md). -/

namespace Sys2Proof.Machine

/-- A short chunk (R73): its length is below M, 0 included. -/
def shortChunk (p : Params) (c : Chunk) : Bool := decide (c.bytes.length < p.M)

/-- The timer's part of the send phase (R74): START exactly when the window was empty. -/
def startIfEmpty (s : State) : State :=
  if s.base = s.nextSeqNum then s.tmuxStart else s

/-- The send phase from the framing on (R71): store, emit, START, increment (R72), allSent (R73). -/
def transmitChunk (c : Chunk) (s : State) : State :=
  let d := frameData s.nextSeqNum c
  let s := s.ringWrite (slotOf s.params s.nextSeqNum.toNat) d
  let s := s.emit .new d
  let s := startIfEmpty s
  { s with
    nextSeqNum := toU16 (s.nextSeqNum.toNat + 1)
    allSent := s.allSent || shortChunk s.params c }

/-- The send phase from the chunk's length check on (R71). -/
def checkChunk (c : Chunk) (s : State) : Flow :=
  if s.params.M < c.bytes.length then s.raiseFault .chunkLen else .go (transmitChunk c s)

/-- `SendPhase()` (R71), with the checks in the order of R109. -/
def sendPhase (s : State) : Flow :=
  if s.filling then
    if s.nextSeqNum = 0xFFFF#16 then s.raiseFault .seqOverflow
    else if s.params.W ≤ s.outstanding then s.raiseFault .ringOverwrite
    else checkChunk s.askChunk.1 s.askChunk.2
  else .go s

/-- SEND (R76). -/
def execSend (s : State) : Host.Outcome State Fault Refusal :=
  (s.beginCommand.whenActive sendPhase).outcome

end Sys2Proof.Machine
end

