-- ==== Sys2Proof/Machine/Timeout.lean ====
section
/-! DEFINITION. The expiry gate, the timeout phase and the TMO command (43_timeout_retransmit.md). -/

namespace Sys2Proof.Machine

/-- `ExpiredEff()` (R84): a disarmed timer, or one started in this command, is not asked. -/
def State.expiredEff (s : State) : Bool × State :=
  if s.timerArmed = false then (false, s)
  else if s.startedThisCmd then (false, s)
  else s.askExpired

/-- The TX events of a retransmission: the stored copies of `base .. nextSeqNum-1`, in increasing order
(R85, R86). -/
def retransmissions (s : State) : List PortEvent :=
  (List.range s.outstanding).map fun j =>
    .tx .retx (s.ringRead (slotOf s.params (s.base.toNat + j)))

/-- The timeout phase after an effective expiry (R85): resend the window, then restart (R87). -/
def retransmitWindow (s : State) : State :=
  ({ s with events := s.events ++ retransmissions s } : State).tmuxStart

/-- `TimeoutPhase()` (R85). It raises nothing. -/
def timeoutPhase (s : State) : Flow :=
  if s.expiredEff.1 then .go (retransmitWindow s.expiredEff.2) else .go s.expiredEff.2

/-- TMO (R88). -/
def execTmo (s : State) : Host.Outcome State Fault Refusal :=
  (s.beginCommand.whenActive timeoutPhase).outcome

end Sys2Proof.Machine
end

