-- ==== Sys2Proof/Machine/Session.lean ====
section
/-! DEFINITION. Session control: NOP, OPEN, TICK, TERM and RDREG (44_session_control.md). -/

namespace Sys2Proof.Machine

/-- NOP (R93): nothing but the start of a command, in every mode. -/
def execNop (s : State) : Host.Outcome State Fault Refusal := .next s.beginCommand

/-- The writes of session creation (R94). -/
def createSession (s : State) : State :=
  { s with
    base := 0x0001#16, nextSeqNum := 0x0001#16, allSent := false, timerArmed := false, mode := .active }

/-- OPEN in IDLE (R94): `stream_ok = 0` is FATAL_OPEN. -/
def openPhase (s : State) : Flow :=
  if s.askStreamOk.1 then .go (createSession s.askStreamOk.2)
  else s.askStreamOk.2.raiseFault .fatalOpen

/-- OPEN (R94). -/
def execOpen (s : State) : Host.Outcome State Fault Refusal :=
  let s := s.beginCommand
  Flow.outcome <| match s.mode with
    | .faulted => .go s
    | .idle => openPhase s
    | .active => s.raiseFault .cmdState
    | .terminated => s.raiseFault .cmdState

/-- `TermPhase()` (R97): the terminal datagram, not stored and not timed; then TERMINATED. -/
def termPhase (s : State) : Flow :=
  .go { s.emit .term (frameTerm s.nextSeqNum) with mode := .terminated }

/-- TICK in ACTIVE (R95): the loop exit test (R96), else the three phases in order. -/
def tickPhases (s : State) : Flow :=
  if s.done then termPhase s
  else ((sendPhase s).andThen recvPhase).andThen timeoutPhase

/-- TICK (R95): no effect in FAULTED (R101) and TERMINATED (R100), CMD_STATE in IDLE (R102). -/
def execTick (s : State) : Host.Outcome State Fault Refusal :=
  let s := s.beginCommand
  Flow.outcome <| match s.mode with
    | .faulted => .go s
    | .terminated => .go s
    | .idle => s.raiseFault .cmdState
    | .active => tickPhases s

/-- TERM (R98): the terminal phase only in ACTIVE and Done. -/
def execTerm (s : State) : Host.Outcome State Fault Refusal :=
  let s := s.beginCommand
  Flow.outcome <| match s.mode with
    | .faulted => .go s
    | .idle => s.raiseFault .cmdState
    | .terminated => s.raiseFault .cmdState
    | .active => if s.done then termPhase s else s.raiseFault .cmdState

/-- RDREG n (R99), in every mode. An index that names no register is an illegal command (R52, R92). -/
def execRdreg (n : BitVec 4) (s : State) : Host.Outcome State Fault Refusal :=
  match regOfIndex n with
  | some r => .next { s.beginCommand with rdData := some (s.beginCommand.readReg r) }
  | none => s.illegalCommand.outcome

end Sys2Proof.Machine
end

