-- ==== Sys2Proof/Machine/Step.lean ====
section
/-! DEFINITION. One step of the machine: the next thing the host delivers, a command word or a reset
(00_scope.md rules R8, R9; 44_session_control.md rule R92; 70_reset_and_hazards.md rule R126). -/

namespace Sys2Proof.Machine

/-- `Execute(cmd)` of R92: a legal word runs its command, an illegal one faults or is ignored. -/
def execute (w : Byte) (s : State) : Host.Outcome State Fault Refusal :=
  match decode w with
  | .ok i => exec i s
  | .error _ => s.illegalCommand.outcome

/-- One step. With nothing delivered the block waits and keeps all its state (R120, R126; log 3). -/
def step (s : State) : Host.Outcome State Fault Refusal :=
  match s.nextInput with
  | none => .next s
  | some (.reset, t) => .next t.applyReset
  | some (.cmd w, t) => execute w t

/-- The command word `w` of the opcode table is what the host delivers next. A number that is no byte is no
command word, and leaves the state alone. -/
def State.withFetchWord (s : State) (nbits w : Nat) : State :=
  match tableWord? nbits w with
  | some b => s.offerCommand b
  | none => s

end Sys2Proof.Machine
end

