-- ==== Sys2Proof/Machine/Assembler.lean ====
section
/-! DEFINITION. The assembler syntax of 30_encoding.md rule R55: one line of text to the byte it emits.
It stands beside the machine: no step reads it. Log 14 names what R55 leaves open. -/

namespace Sys2Proof.Machine

/-- The text before a comment. -/
def asmBeforeComment (cs : List Char) : List Char := cs.takeWhile fun c => decide (c ≠ ';')

/-- The words of a line, cut at spaces and tabs; `acc` is the word being read, last letter first. -/
def asmWordsFrom (acc : List Char) : List Char → List (List Char)
  | [] => if acc.isEmpty then [] else [acc.reverse]
  | c :: cs =>
    if c = ' ' ∨ c = '\t' then
      if acc.isEmpty then asmWordsFrom [] cs else acc.reverse :: asmWordsFrom [] cs
    else asmWordsFrom (c :: acc) cs

/-- A command without operand, by its mnemonic. -/
def asmPlain (w : List Char) : Option Instr :=
  if w = ['N', 'O', 'P'] then some .nop
  else if w = ['O', 'P', 'E', 'N'] then some .openSession
  else if w = ['T', 'I', 'C', 'K'] then some .tick
  else if w = ['S', 'E', 'N', 'D'] then some .send
  else if w = ['R', 'E', 'C', 'V'] then some .recv
  else if w = ['T', 'M', 'O'] then some .tmo
  else if w = ['T', 'E', 'R', 'M'] then some .term
  else none

/-- A register by its name or its decimal index 0 to 5. -/
def asmReg (w : List Char) : Option ReadReg :=
  if w = ['S', 'T', 'A', 'T', 'U', 'S'] ∨ w = ['0'] then some .status
  else if w = ['B', 'A', 'S', 'E'] ∨ w = ['1'] then some .base
  else if w = ['N', 'E', 'X', 'T'] ∨ w = ['2'] then some .next
  else if w = ['W', 'I', 'N', 'D', 'O', 'W'] ∨ w = ['3'] then some .window
  else if w = ['M', 'A', 'X', 'P', 'A', 'Y'] ∨ w = ['4'] then some .maxpay
  else if w = ['O', 'U', 'T', 'S', 'T'] ∨ w = ['5'] then some .outst
  else none

/-- A hexadecimal digit, of either case. -/
def asmHexDigit (c : Char) : Option Nat :=
  if 48 ≤ c.toNat ∧ c.toNat ≤ 57 then some (c.toNat - 48)
  else if 65 ≤ c.toNat ∧ c.toNat ≤ 70 then some (c.toNat - 55)
  else if 97 ≤ c.toNat ∧ c.toNat ≤ 102 then some (c.toNat - 87)
  else none

/-- The byte `0xNN` of the directive `.cmd`. -/
def asmHexByte : List Char → Option Byte
  | ['0', 'x', a, b] =>
    match asmHexDigit a, asmHexDigit b with
    | some x, some y => some (BitVec.ofNat 8 (16 * x + y))
    | _, _ => none
  | _ => none

/-- One line assembled: `none` for a line R55 does not allow, `some none` for a line with no command. -/
def assembleLine (line : List Char) : Option (Option Byte) :=
  match asmWordsFrom [] (asmBeforeComment line) with
  | [] => some none
  | [m] => (asmPlain m).map fun i => some (encode i)
  | [m, a] =>
    if m = ['R', 'D', 'R', 'E', 'G'] then (asmReg a).map fun r => some (encode (.rdreg (indexOfReg r)))
    else if m = ['.', 'c', 'm', 'd'] then (asmHexByte a).map some
    else none
  | _ => none

/-- A register's name. -/
def asmRegName : ReadReg → List Char
  | .status => ['S', 'T', 'A', 'T', 'U', 'S']
  | .base => ['B', 'A', 'S', 'E']
  | .next => ['N', 'E', 'X', 'T']
  | .window => ['W', 'I', 'N', 'D', 'O', 'W']
  | .maxpay => ['M', 'A', 'X', 'P', 'A', 'Y']
  | .outst => ['O', 'U', 'T', 'S', 'T']

/-- The line that R55 writes for a command: its mnemonic, and for RDREG the register's name. An RDREG that
names no register has no such line (R52). -/
def asmText : Instr → Option (List Char)
  | .nop => some ['N', 'O', 'P']
  | .openSession => some ['O', 'P', 'E', 'N']
  | .tick => some ['T', 'I', 'C', 'K']
  | .send => some ['S', 'E', 'N', 'D']
  | .recv => some ['R', 'E', 'C', 'V']
  | .tmo => some ['T', 'M', 'O']
  | .term => some ['T', 'E', 'R', 'M']
  | .rdreg n => (regOfIndex n).map fun r => ['R', 'D', 'R', 'E', 'G', ' '] ++ asmRegName r

end Sys2Proof.Machine
end

