-- ==== Sys2Proof/Safety.lean ====
section
/-! DEFINITION. What claims about the block rest on: its invariants (10_state.md rules R22, R23, R31), the
reachable states, the datagrams sent so far in a session, and the end of a run (70_reset_and_hazards.md
rule R130). -/

namespace Sys2Proof.Machine

/-- The window bound (R22), on natural numbers. -/
def State.windowBound (s : State) : Prop :=
  s.base.toNat ≤ s.nextSeqNum.toNat ∧ s.nextSeqNum.toNat ≤ s.base.toNat + s.params.W

/-- The timer invariant (R23). -/
def State.timerExact (s : State) : Prop := s.timerArmed = true ↔ s.base ≠ s.nextSeqNum

/-- The slot of every outstanding sequence number was written since reset, with a datagram framed for that
number from a chunk of at most M bytes (what R31 and R46 say of the state alone). -/
def State.storedCopies (s : State) : Prop :=
  ∀ k, s.base.toNat ≤ k → k < s.nextSeqNum.toNat →
    ∃ c : Chunk, c.bytes.length ≤ s.params.M ∧
      s.orb.read? (slotOf s.params k) = some (frameData (toU16 k) c)

/-- No slot written since reset holds more than M payload bytes (R36). -/
def State.slotsFit (s : State) : Prop := ∀ e ∈ s.orb, e.2.payloadLength.toNat ≤ s.params.M

/-- What the mode says of the registers: FAULTED exactly when a code is recorded (R18, R106); in IDLE the
reset values (R32); TERMINATED only from Done (R97); numbering starts at 1 (R14). -/
structure State.modeExact (s : State) : Prop where
  faulted_iff : s.mode = .faulted ↔ s.faultCode ≠ .none
  idle_fresh : s.mode = .idle → s.base = 1#16 ∧ s.nextSeqNum = 1#16 ∧ s.allSent = false
  terminated_done : s.mode = .terminated → s.allSent = true ∧ s.base = s.nextSeqNum
  base_pos : 1 ≤ s.base.toNat

/-- The invariant of the block. -/
structure State.Inv (s : State) : Prop where
  window : s.windowBound
  timer : s.timerExact
  copies : s.storedCopies
  orb_wf : s.orb.wf s.params.W = true
  slots_fit : s.slotsFit
  mode_exact : s.modeExact

/-- The reachable states: from reset, for any parameters, any input and any answers at any time (R9, R129). -/
inductive Reachable : State → Prop
  | reset (p : Params) : Reachable (State.resetOf p)
  | input {s : State} (h : List HostInput) (e : Env) (hs : Reachable s) :
      Reachable { s with host := h, env := e }
  | step {s t : State} (hs : Reachable s) (h : step s = .next t) : Reachable t

/-- The datagrams a command transmitted for the first time. -/
def State.newDatagrams (s : State) : List Datagram :=
  s.tx.filterMap fun e => if e.1 = .new then some e.2 else none

/-- The datagrams a command resent (R86). -/
def State.retxDatagrams (s : State) : List Datagram :=
  s.tx.filterMap fun e => if e.1 = .retx then some e.2 else none

/-- The reachable states with the list of datagrams emitted as NEW since reset, oldest first (R31). -/
inductive Run : State → List Datagram → Prop
  | reset (p : Params) : Run (State.resetOf p) []
  | input {s : State} {sent : List Datagram} (h : List HostInput) (e : Env) (hs : Run s sent) :
      Run { s with host := h, env := e } sent
  | command {s t : State} {sent : List Datagram} {w : Byte} {rest : List HostInput} (hs : Run s sent)
      (hw : s.host = .cmd w :: rest) (h : step s = .next t) : Run t (sent ++ t.newDatagrams)
  | resetAgain {s t : State} {sent : List Datagram} {rest : List HostInput} (hs : Run s sent)
      (hw : s.host = .reset :: rest) (h : step s = .next t) : Run t []

/-- The invariant together with the datagrams emitted as NEW since reset, oldest first: they are numbered from 1,
one for each number below nextSeqNum, and the slot of every outstanding number holds its own (R31). -/
structure State.Remembers (s : State) (sent : List Datagram) : Prop where
  inv : s.Inv
  count : sent.length + 1 = s.nextSeqNum.toNat
  numbered : ∀ j (h : j < sent.length), sent[j].seqNum.toNat = j + 1
  stored : ∀ k, s.base.toNat ≤ k → k < s.nextSeqNum.toNat → sent[k - 1]? = some (s.ringRead (slotOf s.params k))

/-- The bound of F5 and F3 (R141): nextSeqNum as the receive phase of a TICK finds it, after the send phase has
sent one datagram when it found Filling (R71, R95). -/
def State.polledNext (s : State) : Nat := if s.filling then s.nextSeqNum.toNat + 1 else s.nextSeqNum.toNat

/-- The state with the RX answers still to come set. -/
def State.withRx (s : State) (q : List (Option Datagram)) : State := { s with env := { s.env with rx := q } }

/-- The end of a run (R130). -/
def State.runEnded (s : State) : Bool :=
  match s.mode with
  | .idle => false
  | .active => false
  | .terminated => true
  | .faulted => true

/-- A completed transfer (R130): it speaks of the block only, not of the receiver, the stream or the timer. -/
def State.completedTransfer (s : State) : Bool := decide (s.mode = .terminated)

/-- A failed run (R130). -/
def State.failedRun (s : State) : Bool := decide (s.mode = .faulted)

end Sys2Proof.Machine
end

