-- ==== Sys2Proof/Certificates/Slice0/Obligations.lean ====
section
/-! DEFINITION. The statements for the provers, each from a numbered rule of spec/. A command's next state is
written as a record over the state it starts from, so that every field not named is unchanged. -/

open Sys2Proof Sys2Proof.Machine

/-! Encodings (30_encoding.md) -/

/-- R50: the opcode map, one clause a row. -/
def Obligations.OpcodeMapDecodes : Prop :=
  decode 0x00#8 = .ok .nop ∧ decode 0x01#8 = .ok .openSession ∧ decode 0x02#8 = .ok .tick ∧
  decode 0x03#8 = .ok .send ∧ decode 0x04#8 = .ok .recv ∧ decode 0x05#8 = .ok .tmo ∧
  decode 0x06#8 = .ok .term ∧ decode 0x07#8 = .ok (.rdreg 0) ∧ decode 0x17#8 = .ok (.rdreg 1) ∧
  decode 0x27#8 = .ok (.rdreg 2) ∧ decode 0x37#8 = .ok (.rdreg 3) ∧ decode 0x47#8 = .ok (.rdreg 4) ∧
  decode 0x57#8 = .ok (.rdreg 5) ∧
  ∀ w : BitVec 8, 8 ≤ (w.extractLsb' 0 4).toNat → decode w = .error (.reservedOpcode (w.extractLsb' 0 4))

/-- R51: which words are illegal, how many there are of each kind, and what one does. -/
def Obligations.IllegalWordRaisesIllegalCmd : Prop :=
  (∀ w : BitVec 8, (∃ i, decode w = .ok i) ↔
    ((w.extractLsb' 0 4).toNat ≤ 6 ∧ w.extractLsb' 4 4 = 0#4) ∨
    ((w.extractLsb' 0 4).toNat = 7 ∧ (w.extractLsb' 4 4).toNat ≤ 5)) ∧
  ((List.range 256).countP fun n => match decode (BitVec.ofNat 8 n) with
    | .error (.reservedOpcode _) => true
    | _ => false) = 128 ∧
  ((List.range 256).countP fun n => match decode (BitVec.ofNat 8 n) with
    | .error (.nonzeroArg _ _) => true
    | _ => false) = 105 ∧
  ((List.range 256).countP fun n => match decode (BitVec.ofNat 8 n) with
    | .error (.reservedRegister _) => true
    | _ => false) = 10 ∧
  ((List.range 256).countP fun n => match decode (BitVec.ofNat 8 n) with
    | .ok _ => true
    | .error _ => false) = 13 ∧
  ∀ (s : State) (w : Byte) (e : DecodeError), decode w = .error e →
    (s.mode ≠ .faulted → execute w s = .next { s with
      startedThisCmd := false, events := [], rdData := none, mode := .faulted, faultCode := .illegalCmd }) ∧
    (s.mode = .faulted → execute w s = .next { s with
      startedThisCmd := false, events := [], rdData := none })

/-- R52: the six register indices and the ten reserved ones. -/
def Obligations.RdregIndexNamesRegister : Prop :=
  ([0, 1, 2, 3, 4, 5].map regOfIndex =
    [some .status, some .base, some .next, some .window, some .maxpay, some .outst]) ∧
  (∀ n : BitVec 4, n.toNat ≤ 5 → decode (n ++ 0x7#4) = .ok (.rdreg n)) ∧
  ∀ n : BitVec 4, 6 ≤ n.toNat → regOfIndex n = none ∧ decode (n ++ 0x7#4) = .error (.reservedRegister n)

/-- R47 to R54: decoding an encoded well-formed command gives it back, and each legal word has one meaning. -/
def Obligations.DecodeEncodeRoundTrip : Prop :=
  (∀ i : Instr, i.wf = true → decode (encode i) = .ok i) ∧
  ∀ (w : Byte) (i : Instr), decode w = .ok i → i.wf = true ∧ encode i = w

/-- R55: the line written for a command assembles to its word, and a comment changes nothing. -/
def Obligations.AssemblerEmitsEncodedCommand : Prop :=
  (∀ i : Instr, i.wf = true → ∃ text, asmText i = some text ∧ assembleLine text = some (some (encode i))) ∧
  (∀ line comment : List Char, assembleLine (line ++ ';' :: comment) = assembleLine line) ∧
  assembleLine ['R', 'D', 'R', 'E', 'G', ' ', '2'] = some (some 0x27#8) ∧
  assembleLine ['.', 'c', 'm', 'd', ' ', '0', 'x', '0', '8'] = some (some 0x08#8)

/-! Steps and reset -/

/-- R92: how the block takes what the host delivers (the host's queue is the model's choice, log 3): a word that
decodes runs its command on the state with that word taken from the port, any word goes through Execute, a
reset is applied, and with nothing delivered all state stays (R120). -/
def Obligations.StepRunsDecodedCommand : Prop :=
  (∀ (s : State) (w : Byte) (rest : List HostInput) (i : Instr),
    s.host = .cmd w :: rest → decode w = .ok i → step s = exec i { s with host := rest }) ∧
  (∀ (s : State) (w : Byte) (rest : List HostInput),
    s.host = .cmd w :: rest → step s = execute w { s with host := rest }) ∧
  (∀ (s : State) (rest : List HostInput),
    s.host = .reset :: rest → step s = .next ({ s with host := rest } : State).applyReset) ∧
  (∀ s : State, s.host = [] → step s = .next s) ∧
  ∀ (s : State) (nbits w : Nat) (i : Instr),
    decodeTableWord nbits w = some i → step (s.withFetchWord nbits w) = exec i s

/-- R9: the step function is total: every word and every command gives a next state, in every state. -/
def Obligations.StepAlwaysAnswersNext : Prop :=
  ∀ s : State, (∃ t, step s = .next t) ∧ (∀ w, ∃ t, execute w s = .next t) ∧ ∀ i, ∃ t, exec i s = .next t

/-- R32: what reset leaves. That no slot is written says that its content is unspecified (log 6). -/
def Obligations.ResetLeavesStatedValues : Prop :=
  ∀ p : Params, let s := State.resetOf p
    s.mode = .idle ∧ s.base = 0x0001#16 ∧ s.nextSeqNum = 0x0001#16 ∧ s.allSent = false ∧
    s.timerArmed = false ∧ s.faultCode = .none ∧ s.startedThisCmd = false ∧
    (∀ i, s.orb.read? i = none) ∧ s.statusWord = 0x0000#16 ∧ s.exitStatus = none

/-- R126: reset, from any state. It emits nothing, asks no port, and the gate then ignores the timer. -/
def Obligations.ResetRestoresResetValues : Prop :=
  ∀ s : State, let t := s.applyReset
    t.mode = .idle ∧ t.base = 0x0001#16 ∧ t.nextSeqNum = 0x0001#16 ∧ t.allSent = false ∧
    t.timerArmed = false ∧ t.faultCode = .none ∧ t.startedThisCmd = false ∧
    (∀ i, t.orb.read? i = none) ∧ t.events = [] ∧ t.rdData = none ∧ t.env = s.env ∧ t.params = s.params ∧
    t.host = s.host ∧ t.expiredEff = (false, t)

/-- R7: the bounds of W, M and CKSUM_W, and the refusal to build outside them. -/
def Obligations.BuildRefusesBadParameters : Prop :=
  (∀ W M : Nat, (1 ≤ W ∧ W ≤ 65534) ∧ (1 ≤ M ∧ M ≤ 65535) →
    ∃ p, Params.build? W M = some p ∧ p.W = W ∧ p.M = M) ∧
  (∀ W M : Nat, ¬ ((1 ≤ W ∧ W ≤ 65534) ∧ (1 ≤ M ∧ M ≤ 65535)) → Params.build? W M = none) ∧
  (∀ s : State, 1 ≤ s.params.W ∧ s.params.W ≤ 65534 ∧ 1 ≤ s.params.M ∧ s.params.M ≤ 65535) ∧
  1 ≤ Config.cksumWidth

/-- R5: no command and no reset writes the parameters. -/
def Obligations.ParametersNeverChange : Prop :=
  ∀ s t : State, step s = .next t → t.params = s.params

/-! Session control (44_session_control.md) -/

/-- R93. -/
def Obligations.NopOnlyStartsACommand : Prop :=
  ∀ s : State, exec .nop s = .next { s with startedThisCmd := false, events := [], rdData := none }

/-- R94: OPEN in each mode, and for each answer of `stream_ok`. -/
def Obligations.OpenCreatesSessionOrFaults : Prop :=
  ∀ s : State,
    (∀ e, s.mode = .idle → s.env.askStreamOk = (true, e) → exec .openSession s = .next { s with
      startedThisCmd := false, events := [], rdData := none, env := e,
      base := 0x0001#16, nextSeqNum := 0x0001#16, allSent := false, timerArmed := false,
      mode := .active }) ∧
    (∀ e, s.mode = .idle → s.env.askStreamOk = (false, e) →
      ∃ t, exec .openSession s = .next t ∧ t = { s with
        startedThisCmd := false, events := [], rdData := none, env := e,
        mode := .faulted, faultCode := .fatalOpen } ∧
      t.exitStatus = some 1 ∧
      (s.modeExact → t.base = 0x0001#16 ∧ t.nextSeqNum = 0x0001#16 ∧ t.allSent = false)) ∧
    (s.mode = .active ∨ s.mode = .terminated → exec .openSession s = .next { s with
      startedThisCmd := false, events := [], rdData := none, mode := .faulted, faultCode := .cmdState }) ∧
    (s.mode = .faulted → exec .openSession s = .next { s with
      startedThisCmd := false, events := [], rdData := none })

/-- R102: the commands in IDLE; no port is asked but by OPEN. -/
def Obligations.IdleAdmitsOnlyOpenAndRdreg : Prop :=
  ∀ s : State, s.mode = .idle →
    (∀ i, i = .tick ∨ i = .send ∨ i = .recv ∨ i = .tmo ∨ i = .term → exec i s = .next { s with
      startedThisCmd := false, events := [], rdData := none, mode := .faulted, faultCode := .cmdState }) ∧
    exec .nop s = .next { s with startedThisCmd := false, events := [], rdData := none } ∧
    (∀ e, s.env.askStreamOk = (true, e) → ∃ t, exec .openSession s = .next t ∧ t.mode = .active) ∧
    ∀ n r, regOfIndex n = some r → ∃ v, exec (.rdreg n) s = .next { s with
      startedThisCmd := false, events := [], rdData := some v }

/-- R100: the commands in TERMINATED. -/
def Obligations.TerminatedAdmitsOnlyTickNopRdreg : Prop :=
  ∀ s : State, s.mode = .terminated →
    (∀ i, i = .tick ∨ i = .nop → exec i s = .next { s with
      startedThisCmd := false, events := [], rdData := none }) ∧
    (∀ n r, regOfIndex n = some r → exec (.rdreg n) s = .next { s with
      startedThisCmd := false, events := [], rdData := some (s.readReg r) }) ∧
    ∀ i, i = .openSession ∨ i = .send ∨ i = .recv ∨ i = .tmo ∨ i = .term → exec i s = .next { s with
      startedThisCmd := false, events := [], rdData := none, mode := .faulted, faultCode := .cmdState }

/-- R101: in FAULTED every command but RDREG is ignored, the illegal words too. -/
def Obligations.FaultedIgnoresAllButRdreg : Prop :=
  ∀ s : State, s.mode = .faulted →
    (∀ i, (∀ n, i ≠ .rdreg n) → exec i s = .next { s with
      startedThisCmd := false, events := [], rdData := none }) ∧
    (∀ n r, regOfIndex n = some r → exec (.rdreg n) s = .next { s with
      startedThisCmd := false, events := [], rdData := some (s.readReg r) }) ∧
    ∀ (w : Byte) (e : DecodeError), decode w = .error e →
      execute w s = .next { s with startedThisCmd := false, events := [], rdData := none }

/-- R98: TERM in each mode. In Done it is the same as TICK. -/
def Obligations.TermEndsOnlyADoneSession : Prop :=
  ∀ s : State,
    (s.mode = .active ∧ s.allSent = true ∧ s.base = s.nextSeqNum → exec .term s = exec .tick s) ∧
    (s.mode = .active ∧ s.allSent = true ∧ s.base = s.nextSeqNum → exec .term s = .next { s with
      startedThisCmd := false, rdData := none, mode := .terminated,
      events := [.tx .term ⟨s.nextSeqNum, 0#16, Config.Ck s.nextSeqNum 0#16 0#16 [], 0#16, [], rfl⟩] }) ∧
    (s.mode ≠ .faulted → ¬ (s.mode = .active ∧ s.allSent = true ∧ s.base = s.nextSeqNum) →
      exec .term s = .next { s with
        startedThisCmd := false, events := [], rdData := none, mode := .faulted, faultCode := .cmdState }) ∧
    (s.mode = .faulted → exec .term s = .next { s with
      startedThisCmd := false, events := [], rdData := none })

/-- R96, R97: a TICK that finds Done only sends the terminal datagram; exit_status is then 0. -/
def Obligations.TickInDoneSendsTerminalDatagram : Prop :=
  ∀ s : State, s.mode = .active → s.allSent = true → s.base = s.nextSeqNum →
    ∃ t, exec .tick s = .next t ∧ t.exitStatus = some 0 ∧ t = { s with
      startedThisCmd := false, rdData := none, mode := .terminated,
      events := [.tx .term ⟨s.nextSeqNum, 0#16, Config.Ck s.nextSeqNum 0#16 0#16 [], 0#16, [], rfl⟩] }

/-- R99: RDREG in every mode, the six registers and the ten reserved indices. The value of OUTST is said within
the window bound, where the difference is one. -/
def Obligations.RdregReadsRegister : Prop :=
  ∀ s : State,
    (∀ n v, (n, v) ∈ [(0#4, s.statusWord), (1#4, s.base), (2#4, s.nextSeqNum),
        (3#4, BitVec.ofNat 16 s.params.W), (4#4, BitVec.ofNat 16 s.params.M)] →
      exec (.rdreg n) s = .next { s with startedThisCmd := false, events := [], rdData := some v }) ∧
    (∃ v : U16, exec (.rdreg 5) s = .next { s with startedThisCmd := false, events := [], rdData := some v } ∧
      (s.windowBound → v.toNat = s.nextSeqNum.toNat - s.base.toNat)) ∧
    (∀ n : BitVec 4, 6 ≤ n.toNat → s.mode ≠ .faulted → exec (.rdreg n) s = .next { s with
      startedThisCmd := false, events := [], rdData := none, mode := .faulted, faultCode := .illegalCmd }) ∧
    ∀ n : BitVec 4, 6 ≤ n.toNat → s.mode = .faulted → exec (.rdreg n) s = .next { s with
      startedThisCmd := false, events := [], rdData := none }

/-! Status (10_state.md) -/

/-- R26: the layout of STATUS. -/
def Obligations.StatusWordLayout : Prop :=
  ∀ s : State,
    s.statusWord.extractLsb' 0 3 = s.phase ∧ s.statusWord.getLsbD 3 = s.allSent ∧
    s.statusWord.getLsbD 4 = s.timerArmed ∧ s.statusWord.extractLsb' 5 3 = 0#3 ∧
    s.statusWord.extractLsb' 8 4 = s.faultCode.bits ∧ s.statusWord.extractLsb' 12 4 = 0#4 ∧
    (State.resetOf s.params).statusWord = 0x0000#16

/-- R21: PHASE; while R22 holds, exactly one of the four predicates is true in ACTIVE. -/
def Obligations.PhaseEncodesState : Prop :=
  ∀ s : State,
    (s.mode = .idle → s.phase = 0) ∧ (s.mode = .terminated → s.phase = 5) ∧ (s.mode = .faulted → s.phase = 6) ∧
    (s.mode = .active →
      (s.phase = 1 ↔ s.nextSeqNum.toNat < s.base.toNat + s.params.W ∧ s.allSent = false) ∧
      (s.phase = 2 ↔ s.nextSeqNum.toNat = s.base.toNat + s.params.W ∧ s.allSent = false) ∧
      (s.phase = 3 ↔ s.allSent = true ∧ s.base ≠ s.nextSeqNum) ∧
      (s.phase = 4 ↔ s.allSent = true ∧ s.base = s.nextSeqNum) ∧
      s.phase ∈ [1#3, 2#3, 3#3, 4#3, 7#3] ∧ (s.windowBound → s.phase ≠ 7))

/-- R28: BASE, NEXT and OUTST, in every mode; OUTST is at most W and loses nothing in 16 bits while R22 holds. -/
def Obligations.PointerRegistersReadPointers : Prop :=
  ∀ s : State,
    exec (.rdreg 1) s = .next { s with startedThisCmd := false, events := [], rdData := some s.base } ∧
    exec (.rdreg 2) s = .next { s with startedThisCmd := false, events := [], rdData := some s.nextSeqNum } ∧
    ∃ v : U16, exec (.rdreg 5) s = .next { s with startedThisCmd := false, events := [], rdData := some v } ∧
      (s.windowBound → s.base.toNat + v.toNat = s.nextSeqNum.toNat ∧ v.toNat ≤ s.params.W)

/-- R33, R122: exit_status. -/
def Obligations.ExitStatusOnlyAtTheEnd : Prop :=
  ∀ s : State, (s.exitStatus = some 0 ↔ s.mode = .terminated) ∧ (s.exitStatus = some 1 ↔ s.mode = .faulted) ∧
    (s.exitStatus = none ↔ s.mode = .idle ∨ s.mode = .active)

/-- R62: rd_data carries a value only on an RDREG that does not fault; the STATUS output is what RDREG STATUS
would return. -/
def Obligations.RdDataOnlyFromRdreg : Prop :=
  (∀ (s t : State) (w : Byte), execute w s = .next t →
    (t.rdData ≠ none ↔ ∃ n r, decode w = .ok (.rdreg n) ∧ regOfIndex n = some r)) ∧
  ∀ t u : State, exec (.rdreg 0) t = .next u → u.rdData = some t.statusWord

/-! The framer and the ring (40_framer.md, 20_memory.md) -/

/-- R63, R64, R65: FrameData and FrameTerm. -/
def Obligations.FramerBuildsDatagram : Prop :=
  (∀ (seq : U16) (c : Chunk),
    frameData seq c = ⟨seq, 0#16, Config.Ck seq 0#16 (BitVec.ofNat 16 c.bytes.length) c.bytes,
      BitVec.ofNat 16 c.bytes.length, c.bytes, c.length_eq⟩ ∧
    (frameData seq c).payloadLength.toNat = c.bytes.length) ∧
  ∀ seq : U16, frameTerm seq = frameData seq ⟨[], by decide⟩ ∧
    frameTerm seq = ⟨seq, 0#16, Config.Ck seq 0#16 0#16 [], 0#16, [], rfl⟩

/-- R66: AckValid, its example, and a flipped checksum bit. -/
def Obligations.AckValidComparesWholeChecksum : Prop :=
  (∀ r : Datagram, ackValid r = true ↔ Config.Ck r.seqNum r.ackNum r.payloadLength r.payload = r.checksum) ∧
  (∀ a : U16, ackValid ⟨0#16, a, Config.Ck 0#16 a 0#16 [], 0#16, [], rfl⟩ = true) ∧
  ∀ r : Datagram, ackValid r = true → ackValid { r with checksum := r.checksum ^^^ 1 } = false

/-- R36, R37: a slot is written whole, no other slot changes, and the canonical form is kept. -/
def Obligations.RingReadAfterWrite : Prop :=
  ∀ (s : State) (k : Nat) (d : Datagram),
    (s.ringWrite (k % s.params.W) d).ringRead (k % s.params.W) = d ∧
    (∀ i, i ≠ k % s.params.W → (s.ringWrite (k % s.params.W) d).ringRead i = s.ringRead i) ∧
    k % s.params.W < s.params.W ∧
    (s.orb.wf s.params.W = true → (s.ringWrite (k % s.params.W) d).orb.wf s.params.W = true)

/-- R46: the slots of the outstanding numbers are distinct, and each was written since reset. -/
def Obligations.OutstandingSlotsDistinctAndWritten : Prop :=
  (∀ s : State, s.windowBound → ∀ j k, s.base.toNat ≤ j → j < k → k < s.nextSeqNum.toNat →
    j % s.params.W ≠ k % s.params.W) ∧
  ∀ s : State, Reachable s → ∀ k, s.base.toNat ≤ k → k < s.nextSeqNum.toNat →
    ∃ d, s.orb.read? (k % s.params.W) = some d ∧ d.seqNum.toNat = k

/-! The send phase (41_send.md) -/

/-- R71, R74: SEND in Filling, its frame the record, the ring read back slot by slot; outside Filling it asks for
no chunk and has no effect. -/
def Obligations.SendTransmitsOneDatagram : Prop :=
  ∀ s : State, s.mode = .active →
    (∀ (c : Chunk) (e : Env),
      s.nextSeqNum.toNat < s.base.toNat + s.params.W → s.allSent = false → s.nextSeqNum ≠ 0xFFFF#16 →
      s.env.askChunk = (c, e) → c.bytes.length ≤ s.params.M →
      let d : Datagram := ⟨s.nextSeqNum, 0#16,
        Config.Ck s.nextSeqNum 0#16 (BitVec.ofNat 16 c.bytes.length) c.bytes, BitVec.ofNat 16 c.bytes.length,
        c.bytes, c.length_eq⟩
      ∃ t, exec .send s = .next t ∧
        t = { s with
          rdData := none, env := e
          events := .tx .new d :: if s.base = s.nextSeqNum then [.tmr .start] else []
          startedThisCmd := decide (s.base = s.nextSeqNum)
          timerArmed := decide (s.base = s.nextSeqNum) || s.timerArmed
          orb := s.orb.write (s.nextSeqNum.toNat % s.params.W) d
          nextSeqNum := BitVec.ofNat 16 (s.nextSeqNum.toNat + 1)
          allSent := decide (c.bytes.length < s.params.M) } ∧
        ∀ i, t.ringRead i = if i = s.nextSeqNum.toNat % s.params.W then d else s.ringRead i) ∧
    (¬ (s.nextSeqNum.toNat < s.base.toNat + s.params.W ∧ s.allSent = false) →
      exec .send s = .next { s with startedThisCmd := false, events := [], rdData := none })

/-- R72: SEQ_OVERFLOW before any effect, and no wrap: a NEW datagram has a number of at most 0xFFFE and the
pointer is one more afterwards; a command without one leaves the pointer, but for OPEN. -/
def Obligations.SequenceNumbersNeverWrap : Prop :=
  (∀ (i : Instr) (s : State), i = .send ∨ i = .tick → s.mode = .active →
    s.nextSeqNum.toNat < s.base.toNat + s.params.W → s.allSent = false →
    s.nextSeqNum = 0xFFFF#16 → exec i s = .next { s with
      startedThisCmd := false, events := [], rdData := none, mode := .faulted, faultCode := .seqOverflow }) ∧
  (∀ (i : Instr) (s t : State) (d : Datagram), exec i s = .next t → .tx .new d ∈ t.events →
    d.seqNum = s.nextSeqNum ∧ d.seqNum.toNat ≤ 0xFFFE ∧ t.nextSeqNum.toNat = d.seqNum.toNat + 1) ∧
  ∀ (i : Instr) (s t : State), i ≠ .openSession → exec i s = .next t → (∀ d, .tx .new d ∉ t.events) →
    t.nextSeqNum = s.nextSeqNum

/-- R71: a chunk longer than M is consumed and faults CHUNK_LEN; nothing else changes. -/
def Obligations.SendLongChunkFaults : Prop :=
  ∀ (s : State) (c : Chunk) (e : Env), s.mode = .active →
    s.nextSeqNum.toNat < s.base.toNat + s.params.W → s.allSent = false → s.nextSeqNum ≠ 0xFFFF#16 →
    s.env.askChunk = (c, e) → s.params.M < c.bytes.length →
    exec .send s = .next { s with
      startedThisCmd := false, events := [], rdData := none, env := e,
      mode := .faulted, faultCode := .chunkLen }

/-- R73: a framed chunk sets allSent exactly when it is short, and nothing else sets it; the short chunk is stored
like every other; once set in a session it stays, and no chunk is asked for. -/
def Obligations.ShortChunkSetsAllSentForGood : Prop :=
  (∀ (i : Instr) (s t : State) (d : Datagram), exec i s = .next t → .tx .new d ∈ t.events →
    (t.allSent = true ↔ d.payload.length < s.params.M) ∧
    t.orb = s.orb.write (s.nextSeqNum.toNat % s.params.W) d) ∧
  (∀ (i : Instr) (s t : State), exec i s = .next t → s.allSent = false → t.allSent = true →
    ∃ d, .tx .new d ∈ t.events) ∧
  ∀ (i : Instr) (s t : State), s.mode = .active → s.allSent = true → exec i s = .next t →
    t.allSent = true ∧ t.env.chunk = s.env.chunk ∧ ∀ d, .tx .new d ∉ t.events

/-- R75, R134: RING_OVERWRITE cannot be reached. -/
def Obligations.RingOverwriteNeverRaised : Prop :=
  ∀ s t : State, step s = .next t → t.faultCode = .ringOverwrite → s.faultCode = .ringOverwrite

/-! The receive phase (42_ack_receive.md) -/

/-- R77, R78, R81: a valid ACK inside the window. -/
def Obligations.RecvAdvancesBase : Prop :=
  ∀ (s : State) (r : Datagram) (e : Env), s.mode = .active → s.env.askRx = (some r, e) →
    Config.Ck r.seqNum r.ackNum r.payloadLength r.payload = r.checksum →
    s.base.toNat ≤ r.ackNum.toNat → r.ackNum.toNat < s.nextSeqNum.toNat →
    ∃ t, exec .recv s = .next t ∧ t.base.toNat = r.ackNum.toNat + 1 ∧ t = { s with
      rdData := none, env := e, base := t.base
      events := [.tmr (if r.ackNum.toNat + 1 = s.nextSeqNum.toNat then .stop else .start)]
      timerArmed := decide (r.ackNum.toNat + 1 ≠ s.nextSeqNum.toNat)
      startedThisCmd := decide (r.ackNum.toNat + 1 ≠ s.nextSeqNum.toNat) }

/-- R79: a datagram that fails its checksum and a stale ACK are dropped; so is an empty poll without effect. -/
def Obligations.RecvDiscardsInvalidAndStale : Prop :=
  ∀ (s : State) (a : Option Datagram) (e : Env), s.mode = .active → s.env.askRx = (a, e) →
    (∀ r, a = some r → Config.Ck r.seqNum r.ackNum r.payloadLength r.payload ≠ r.checksum ∨
      r.ackNum.toNat < s.base.toNat) →
    exec .recv s = .next { s with startedThisCmd := false, events := [], rdData := none, env := e }

/-- R80: a valid ACK of a number never sent is ACK_RANGE, with no other change. -/
def Obligations.RecvAckBeyondWindowFaults : Prop :=
  ∀ (s : State) (r : Datagram) (e : Env), s.mode = .active → s.env.askRx = (some r, e) →
    Config.Ck r.seqNum r.ackNum r.payloadLength r.payload = r.checksum →
    s.base.toNat ≤ r.ackNum.toNat → s.nextSeqNum.toNat ≤ r.ackNum.toNat →
    exec .recv s = .next { s with
      startedThisCmd := false, events := [], rdData := none, env := e,
      mode := .faulted, faultCode := .ackRange }

/-- R67: of a valid received datagram the window logic reads ackNum only: two that agree there have the same
effect under every command (in the second case the command does not ask for one). -/
def Obligations.OnlyAckNumOfAnAckMatters : Prop :=
  (∀ r : Datagram, ackNumOf r = r.ackNum) ∧
  ∀ (s : State) (r q : Datagram) (rest : List (Option Datagram)) (i : Instr),
    ackValid r = true → ackValid q = true → r.ackNum = q.ackNum →
    exec i (s.withRx (some r :: rest)) = exec i (s.withRx (some q :: rest)) ∨
    ∃ t : State, exec i (s.withRx (some r :: rest)) = .next (t.withRx (some r :: rest)) ∧
      exec i (s.withRx (some q :: rest)) = .next (t.withRx (some q :: rest))

/-- R132: processing every ACK of a burst in order ends with the window that its newest ACK alone gives. -/
def Obligations.NewestAckAloneGivesSameWindow : Prop :=
  ∀ (s t u v : State) (r q : Datagram) (rest : List (Option Datagram)), s.mode = .active →
    ackValid r = true → ackValid q = true → r.ackNum.toNat ≤ q.ackNum.toNat →
    q.ackNum.toNat < s.nextSeqNum.toNat →
    exec .recv (s.withRx (some r :: some q :: rest)) = .next t →
    exec .recv t = .next u →
    exec .recv (s.withRx (some q :: rest)) = .next v →
    u = { v with events := u.events, startedThisCmd := u.startedThisCmd }

/-! The timeout phase (43_timeout_retransmit.md) -/

/-- R84: the expiry gate. -/
def Obligations.ExpiryGateAsksOnlyArmedTimer : Prop :=
  ∀ s : State,
    (s.timerArmed = false → s.expiredEff = (false, s)) ∧
    (s.timerArmed = true → s.startedThisCmd = true → s.expiredEff = (false, s)) ∧
    ∀ b e, s.timerArmed = true → s.startedThisCmd = false → s.env.askExpired = (b, e) →
      s.expiredEff = (b, { s with env := e })

/-- R84, R85, R87, R88: TMO on an expiry, with a disarmed timer (which it does not ask) and without an expiry.
A START of an earlier command does not mask the expiry. -/
def Obligations.TmoResendsWindowOnExpiryOnly : Prop :=
  ∀ s : State, s.mode = .active →
    (∀ e, s.timerArmed = true → s.env.askExpired = (true, e) → exec .tmo s = .next { s with
      rdData := none, env := e, timerArmed := true, startedThisCmd := true
      events := ((List.range (s.nextSeqNum.toNat - s.base.toNat)).map fun j =>
        .tx .retx (s.ringRead ((s.base.toNat + j) % s.params.W))) ++ [.tmr .start] }) ∧
    (s.timerArmed = false → exec .tmo s = .next { s with
      startedThisCmd := false, events := [], rdData := none }) ∧
    ∀ e, s.timerArmed = true → s.env.askExpired = (false, e) → exec .tmo s = .next { s with
      startedThisCmd := false, events := [], rdData := none, env := e }

/-- R86, R69: whatever command retransmits, it resends exactly the datagrams first emitted as NEW with numbers
`base .. nextSeqNum-1` (of its end state: a TICK may have sent the last one itself), identical in every field,
each once, in increasing order. A TMO that sees an expiry does retransmit. -/
def Obligations.RetransmissionsAreTheOriginals : Prop :=
  (∀ (i : Instr) (s t : State) (sent : List Datagram), Run s sent → exec i s = .next t →
    t.retxDatagrams ≠ [] →
    t.retxDatagrams = (sent ++ t.newDatagrams).drop (t.base.toNat - 1) ∧
    t.retxDatagrams.map (fun d => d.seqNum.toNat) =
      List.range' t.base.toNat (t.nextSeqNum.toNat - t.base.toNat)) ∧
  ∀ (s : State) (sent : List Datagram) (e : Env), Run s sent → s.mode = .active → s.timerArmed = true →
    s.env.askExpired = (true, e) →
    ∃ t, exec .tmo s = .next t ∧ t.newDatagrams = [] ∧ t.retxDatagrams ≠ [] ∧ t.env = e

/-- R91: a timeout phase leaves the window state, and a second one resends the same list. -/
def Obligations.TimeoutIsIdempotent : Prop :=
  (∀ s t : State, s.mode = .active → exec .tmo s = .next t →
    t.base = s.base ∧ t.nextSeqNum = s.nextSeqNum ∧ t.allSent = s.allSent ∧ t.orb = s.orb) ∧
  ∀ (s t u : State) (q : List Bool), s.mode = .active → s.env.tmrExpired = true :: true :: q →
    exec .tmo s = .next t → exec .tmo t = .next u → u.events = t.events ∧ u.orb = s.orb ∧
      u.base = s.base ∧ u.nextSeqNum = s.nextSeqNum ∧ u.allSent = s.allSent ∧ u.timerArmed = s.timerArmed

/-- R90: a retransmission needs a timer armed before the command and no timer command earlier in it, so no
command retransmits while the window is empty. -/
def Obligations.SpuriousExpiryIsHarmless : Prop :=
  ∀ (i : Instr) (s t : State) (d : Datagram), exec i s = .next t → .tx .retx d ∈ t.events →
    s.timerArmed = true ∧ t.tmr = [.start] ∧ (s.timerExact → s.base ≠ s.nextSeqNum)

/-! TICK (44_session_control.md rule R95) -/

/-- R95, R131: the first TICK of a window. Its START masks the expiry, which is not asked. -/
def Obligations.TickFirstSendMasksExpiry : Prop :=
  ∀ (s : State) (c : Chunk) (e f : Env), s.mode = .active → s.base = s.nextSeqNum →
    s.allSent = false → s.nextSeqNum ≠ 0xFFFF#16 → s.env.askChunk = (c, e) →
    c.bytes.length ≤ s.params.M → e.askRx = (none, f) →
    let d : Datagram := ⟨s.nextSeqNum, 0#16,
      Config.Ck s.nextSeqNum 0#16 (BitVec.ofNat 16 c.bytes.length) c.bytes, BitVec.ofNat 16 c.bytes.length,
        c.bytes, c.length_eq⟩
    exec .tick s = .next { s with
      rdData := none, env := f, startedThisCmd := true, timerArmed := true
      events := [.tx .new d, .tmr .start]
      orb := s.orb.write (s.nextSeqNum.toNat % s.params.W) d
      nextSeqNum := BitVec.ofNat 16 (s.nextSeqNum.toNat + 1)
      allSent := decide (c.bytes.length < s.params.M) }

/-- R95, R136: a TICK in Filling with an armed timer that has expired. The fresh datagram goes out as NEW and
again as the last RETX. -/
def Obligations.TickResendsFreshDatagram : Prop :=
  ∀ (s : State) (c : Chunk) (e f g : Env), s.mode = .active → s.timerArmed = true →
    s.base.toNat < s.nextSeqNum.toNat → s.nextSeqNum.toNat < s.base.toNat + s.params.W →
    s.allSent = false → s.nextSeqNum ≠ 0xFFFF#16 → s.env.askChunk = (c, e) →
    c.bytes.length ≤ s.params.M → e.askRx = (none, f) → f.askExpired = (true, g) →
    let d : Datagram := ⟨s.nextSeqNum, 0#16,
      Config.Ck s.nextSeqNum 0#16 (BitVec.ofNat 16 c.bytes.length) c.bytes, BitVec.ofNat 16 c.bytes.length,
        c.bytes, c.length_eq⟩
    exec .tick s = .next { s with
      rdData := none, env := g, startedThisCmd := true, timerArmed := true
      events := [.tx .new d] ++
        ((List.range (s.nextSeqNum.toNat - s.base.toNat)).map fun j =>
          .tx .retx (s.ringRead ((s.base.toNat + j) % s.params.W))) ++ [.tx .retx d, .tmr .start]
      orb := s.orb.write (s.nextSeqNum.toNat % s.params.W) d
      nextSeqNum := BitVec.ofNat 16 (s.nextSeqNum.toNat + 1)
      allSent := decide (c.bytes.length < s.params.M) }

/-- R84, R116: outside Filling and Done, a TICK that takes an advancing ACK does what RECV does: the restart or
the stop masks the expiry. -/
def Obligations.TickAfterAckMasksExpiry : Prop :=
  ∀ (s : State) (r : Datagram) (e : Env), s.mode = .active →
    ¬ (s.nextSeqNum.toNat < s.base.toNat + s.params.W ∧ s.allSent = false) →
    ¬ (s.allSent = true ∧ s.base = s.nextSeqNum) → s.env.askRx = (some r, e) → ackValid r = true →
    s.base.toNat ≤ r.ackNum.toNat → r.ackNum.toNat < s.nextSeqNum.toNat →
    exec .tick s = exec .recv s ∧ ∃ t, exec .tick s = .next t ∧ t.base.toNat = r.ackNum.toNat + 1

/-- R107, D40: a TICK whose receive phase faults keeps what its send phase did and emitted. -/
def Obligations.TickKeepsSendOnAckRangeFault : Prop :=
  ∀ (s t : State) (r : Datagram) (e : Env), s.mode = .active → s.allSent = false →
    exec .send s = .next t → t.mode = .active → t.env.askRx = (some r, e) → ackValid r = true →
    t.base.toNat ≤ r.ackNum.toNat → t.nextSeqNum.toNat ≤ r.ackNum.toNat →
    exec .tick s = .next { t with env := e, mode := .faulted, faultCode := .ackRange }

/-- R143: outside Done, one TICK agrees with SEND, RECV and TMO in a row exactly when the TMO saw no effective
expiry or no START was issued by the SEND or the RECV. -/
def Obligations.TickAgreesWithPhaseCommands : Prop :=
  ∀ s t u v x : State, s.mode = .active → ¬ (s.allSent = true ∧ s.base = s.nextSeqNum) →
    exec .send s = .next t → exec .recv t = .next u → exec .tmo u = .next v → exec .tick s = .next x →
    ((x.mode = v.mode ∧ x.base = v.base ∧ x.nextSeqNum = v.nextSeqNum ∧ x.allSent = v.allSent ∧
      x.timerArmed = v.timerArmed ∧ x.faultCode = v.faultCode ∧ x.orb = v.orb ∧
      x.events = t.events ++ u.events ++ v.events) ↔
    (v.events = [] ∨ .tmr .start ∉ t.events ++ u.events))

/-- R135: the order of a TICK's outputs outside Done; and what the command leaves. -/
def Obligations.TickOutputOrder : Prop :=
  ∀ s x : State, s.Inv → s.mode = .active → ¬ (s.allSent = true ∧ s.base = s.nextSeqNum) →
    exec .tick s = .next x →
    ∃ news resent a b c,
      x.tx = news.map (fun d => (TxKind.new, d)) ++ resent.map (fun d => (TxKind.retx, d)) ∧
      news.length ≤ 1 ∧ resent.length ≤ s.params.W ∧
      (resent ≠ [] → resent.map (fun d => d.seqNum.toNat) =
        List.range' x.base.toNat (x.nextSeqNum.toNat - x.base.toNat)) ∧
      x.tmr = a ++ b ++ c ∧ a ∈ [[], [TimerCmd.start]] ∧ b ∈ [[], [TimerCmd.start], [TimerCmd.stop]] ∧
      c ∈ [[], [TimerCmd.start]] ∧ (a ≠ [] → news ≠ []) ∧ (c ≠ [] ↔ resent ≠ []) ∧
      x.params = s.params ∧ x.rdData = none ∧ x.host = s.host ∧ x.orbEpoch = s.orbEpoch ∧
      ((x.mode = s.mode ∧ x.faultCode = s.faultCode) ∨ x.mode = .faulted)

/-! Invariants (10_state.md) -/

/-- The invariant holds right after reset, for every parameters. -/
def Obligations.InvariantHoldsAfterReset : Prop :=
  (∀ p : Params, (State.resetOf p).Inv) ∧ State.reset.Inv

/-- Every step keeps the invariant: the window bound (R22), the timer (R23), the stored copies (R31, R46), the
canonical form of the ring and what the mode says of the registers. -/
def Obligations.InvariantKeptByEveryStep : Prop :=
  ∀ s t : State, s.Inv → step s = .next t → t.Inv

/-- R22, R23: the window bound and the timer invariant in every reachable state, FAULTED included. -/
def Obligations.ReachableWindowAndTimer : Prop :=
  ∀ s : State, Reachable s →
    s.base.toNat ≤ s.nextSeqNum.toNat ∧ s.nextSeqNum.toNat ≤ s.base.toNat + s.params.W ∧
    (s.timerArmed = true ↔ s.base ≠ s.nextSeqNum)

/-- R31 as a step lemma: the block with the datagrams emitted as NEW since reset, numbered from 1 and each
outstanding one in its slot, stays so under every command word, those it emits appended, and a reset starts the
list anew. Hence in every run the slot of an outstanding number k holds the datagram emitted as NEW with number
k, the k-th since reset. -/
def Obligations.StoredCopyIsWhatWasSent : Prop :=
  (∀ p : Params, (State.resetOf p).Remembers []) ∧
  (∀ (s t : State) (sent : List Datagram) (w : Byte), s.Remembers sent → execute w s = .next t →
    t.Remembers (sent ++ t.newDatagrams)) ∧
  (∀ (s : State) (sent : List Datagram), s.Remembers sent → s.applyReset.Remembers []) ∧
  ∀ (s : State) (sent : List Datagram), Run s sent →
    ∀ k, s.base.toNat ≤ k → k < s.nextSeqNum.toNat →
      sent[k - 1]? = some (s.ringRead (k % s.params.W)) ∧ (s.ringRead (k % s.params.W)).seqNum.toNat = k

/-! The whole machine -/

/-- R127, R13: how a command word can change the mode. None returns to IDLE, and only OPEN in IDLE enters
ACTIVE. -/
def Obligations.OnlyResetLeavesTheEndModes : Prop :=
  ∀ (s t : State) (w : Byte), execute w s = .next t →
    (t.mode = .idle → s.mode = .idle) ∧
    (t.mode = .active → s.mode = .active ∨ (s.mode = .idle ∧ decode w = .ok .openSession)) ∧
    (s.mode = .terminated → t.mode = .terminated ∨ t.mode = .faulted) ∧
    (s.mode = .faulted → t.mode = .faulted ∧ t.faultCode = s.faultCode)

/-- R106, R123: a fault of a command other than TICK writes the mode and the code and nothing else; it emits
nothing and stops no timer. -/
def Obligations.FaultEntryChangesOnlyModeAndCode : Prop :=
  ∀ (i : Instr) (s t : State), i ≠ .tick → s.mode ≠ .faulted → exec i s = .next t → t.mode = .faulted →
    t.faultCode ≠ .none ∧ t = { s with
      startedThisCmd := false, events := [], rdData := none, env := t.env,
      mode := .faulted, faultCode := t.faultCode }

/-- R14, R15, R16: in a session base never decreases and stays at most nextSeqNum, nextSeqNum grows by at most 1
a command, and allSent is never cleared. -/
def Obligations.PointersNeverGoBack : Prop :=
  ∀ (s t : State) (i : Instr), s.mode = .active → s.windowBound → exec i s = .next t →
    s.base.toNat ≤ t.base.toNat ∧ t.base.toNat ≤ t.nextSeqNum.toNat ∧
    (t.nextSeqNum = s.nextSeqNum ∨ t.nextSeqNum.toNat = s.nextSeqNum.toNat + 1) ∧
    (s.allSent = true → t.allSent = true)

/-- R38: only SEND and TICK write the ring, at the slot of nextSeqNum, and only with a NEW datagram. -/
def Obligations.OnlySendPhaseWritesRing : Prop :=
  ∀ (i : Instr) (s t : State), exec i s = .next t → t.orb ≠ s.orb →
    (i = .send ∨ i = .tick) ∧ ∃ d, .tx .new d ∈ t.events ∧
      t.orb = s.orb.write (s.nextSeqNum.toNat % s.params.W) d ∧
      ∀ j, j ≠ s.nextSeqNum.toNat % s.params.W → t.ringRead j = s.ringRead j

/-- R97, R100: a terminal datagram is emitted only on leaving ACTIVE in Done, alone; after it nothing is. -/
def Obligations.TerminalDatagramSentAtMostOnce : Prop :=
  (∀ (i : Instr) (s t : State) (d : Datagram), exec i s = .next t → .tx .term d ∈ t.events →
    (i = .tick ∨ i = .term) ∧ s.mode = .active ∧ s.allSent = true ∧ s.base = s.nextSeqNum ∧
    t.mode = .terminated ∧ t.events = [.tx .term d] ∧ d = frameTerm s.nextSeqNum) ∧
  ∀ (i : Instr) (s t : State), s.mode ≠ .active → exec i s = .next t → t.events = []

/-- R11, R42, R137: each port is asked at most once a command, and only by the commands and in the states
that its rules name. -/
def Obligations.PortsAskedOnlyWhereTheRulesSay : Prop :=
  ∀ (i : Instr) (s t : State), exec i s = .next t →
    (t.env.streamOk = s.env.streamOk ∨
      (t.env.streamOk = s.env.streamOk.tail ∧ i = .openSession ∧ s.mode = .idle)) ∧
    (t.env.chunk = s.env.chunk ∨
      (t.env.chunk = s.env.chunk.tail ∧ (i = .send ∨ i = .tick) ∧ s.mode = .active ∧
        s.nextSeqNum.toNat < s.base.toNat + s.params.W ∧ s.allSent = false ∧ s.nextSeqNum ≠ 0xFFFF#16)) ∧
    (t.env.rx = s.env.rx ∨
      (t.env.rx = s.env.rx.tail ∧ (i = .recv ∨ i = .tick) ∧ s.mode = .active)) ∧
    (t.env.tmrExpired = s.env.tmrExpired ∨
      (t.env.tmrExpired = s.env.tmrExpired.tail ∧ (i = .tmo ∨ i = .tick) ∧ s.mode = .active ∧
        s.timerArmed = true))

/-- R139: a run of TICKs under the fairness premises of R141 reaches the terminal phase, and the terminal
datagram's number is the final nextSeqNum. `σ n` is the state before TICK number n, its answers fixed: F1 the
host ticks while ACTIVE (answers and input may be set anew between ticks), F3 an ACK inside the window
eventually comes while datagrams are outstanding, F5 no valid ACK of an unsent number comes, F6 the stream
never needs a number beyond 0xFFFE, and the packetizer gives at most M bytes. F3 and F5 speak of nextSeqNum as
the receive phase finds it, so an ACK may be of the number its own TICK sends. F2 and F4 are not needed. -/
def Obligations.FairTicksReachTerminated : Prop :=
  ∀ σ : Nat → State, (σ 0).Inv → (σ 0).mode = .active →
    (∀ n, (σ n).mode = .active → ∃ t h e, exec .tick (σ n) = .next t ∧
      σ (n + 1) = { t with host := h, env := e }) →
    (∀ n, (σ n).mode = .active → (σ n).base ≠ (σ n).nextSeqNum → ∃ m r rest, n ≤ m ∧
      (σ m).env.rx = some r :: rest ∧ ackValid r = true ∧
      (σ m).base.toNat ≤ r.ackNum.toNat ∧ r.ackNum.toNat < (σ m).polledNext) →
    (∀ n, (σ n).mode = .active → ∃ a rest, (σ n).env.rx = a :: rest ∧ ∀ r, a = some r → ackValid r = true →
      r.ackNum.toNat < (σ n).polledNext) →
    (∀ n, (σ n).mode = .active → (σ n).filling = true → (σ n).nextSeqNum ≠ 0xFFFF#16 ∧
      ∃ c rest, (σ n).env.chunk = c :: rest ∧ c.bytes.length ≤ (σ n).params.M) →
    ∃ n t, (σ n).mode = .active ∧ (σ n).done = true ∧ exec .tick (σ n) = .next t ∧
      t.mode = .terminated ∧ t.tx = [(.term, frameTerm (σ n).nextSeqNum)]
end

