-- ==== Sys2Proof/Laws/State.lean ====
section
/-! SUPPORT. What each shared operation does to each field of the state, one lemma a field, so that no later
proof unfolds a record update. -/

namespace Sys2Proof.Machine

/-! The start of a command (R104) -/

@[simp] theorem State.beginCommand_params (s : State) :
    (s.beginCommand).params = s.params := rfl

@[simp] theorem State.beginCommand_mode (s : State) :
    (s.beginCommand).mode = s.mode := rfl

@[simp] theorem State.beginCommand_base (s : State) :
    (s.beginCommand).base = s.base := rfl

@[simp] theorem State.beginCommand_nextSeqNum (s : State) :
    (s.beginCommand).nextSeqNum = s.nextSeqNum := rfl

@[simp] theorem State.beginCommand_allSent (s : State) :
    (s.beginCommand).allSent = s.allSent := rfl

@[simp] theorem State.beginCommand_timerArmed (s : State) :
    (s.beginCommand).timerArmed = s.timerArmed := rfl

@[simp] theorem State.beginCommand_faultCode (s : State) :
    (s.beginCommand).faultCode = s.faultCode := rfl

@[simp] theorem State.beginCommand_startedThisCmd (s : State) :
    (s.beginCommand).startedThisCmd = false := rfl

@[simp] theorem State.beginCommand_orb (s : State) :
    (s.beginCommand).orb = s.orb := rfl

@[simp] theorem State.beginCommand_events (s : State) :
    (s.beginCommand).events = [] := rfl

@[simp] theorem State.beginCommand_rdData (s : State) :
    (s.beginCommand).rdData = none := rfl

@[simp] theorem State.beginCommand_host (s : State) :
    (s.beginCommand).host = s.host := rfl

@[simp] theorem State.beginCommand_env (s : State) :
    (s.beginCommand).env = s.env := rfl

@[simp] theorem State.beginCommand_orbEpoch (s : State) :
    (s.beginCommand).orbEpoch = s.orbEpoch := rfl

/-! `Emit` (R11) -/

@[simp] theorem State.emit_params (s : State) (k : TxKind) (d : Datagram) :
    (s.emit k d).params = s.params := rfl

@[simp] theorem State.emit_mode (s : State) (k : TxKind) (d : Datagram) :
    (s.emit k d).mode = s.mode := rfl

@[simp] theorem State.emit_base (s : State) (k : TxKind) (d : Datagram) :
    (s.emit k d).base = s.base := rfl

@[simp] theorem State.emit_nextSeqNum (s : State) (k : TxKind) (d : Datagram) :
    (s.emit k d).nextSeqNum = s.nextSeqNum := rfl

@[simp] theorem State.emit_allSent (s : State) (k : TxKind) (d : Datagram) :
    (s.emit k d).allSent = s.allSent := rfl

@[simp] theorem State.emit_timerArmed (s : State) (k : TxKind) (d : Datagram) :
    (s.emit k d).timerArmed = s.timerArmed := rfl

@[simp] theorem State.emit_faultCode (s : State) (k : TxKind) (d : Datagram) :
    (s.emit k d).faultCode = s.faultCode := rfl

@[simp] theorem State.emit_startedThisCmd (s : State) (k : TxKind) (d : Datagram) :
    (s.emit k d).startedThisCmd = s.startedThisCmd := rfl

@[simp] theorem State.emit_orb (s : State) (k : TxKind) (d : Datagram) :
    (s.emit k d).orb = s.orb := rfl

@[simp] theorem State.emit_events (s : State) (k : TxKind) (d : Datagram) :
    (s.emit k d).events = s.events ++ [.tx k d] := rfl

@[simp] theorem State.emit_rdData (s : State) (k : TxKind) (d : Datagram) :
    (s.emit k d).rdData = s.rdData := rfl

@[simp] theorem State.emit_host (s : State) (k : TxKind) (d : Datagram) :
    (s.emit k d).host = s.host := rfl

@[simp] theorem State.emit_env (s : State) (k : TxKind) (d : Datagram) :
    (s.emit k d).env = s.env := rfl

@[simp] theorem State.emit_orbEpoch (s : State) (k : TxKind) (d : Datagram) :
    (s.emit k d).orbEpoch = s.orbEpoch := rfl

/-! `TmuxStart` (R83) -/

@[simp] theorem State.tmuxStart_params (s : State) :
    (s.tmuxStart).params = s.params := rfl

@[simp] theorem State.tmuxStart_mode (s : State) :
    (s.tmuxStart).mode = s.mode := rfl

@[simp] theorem State.tmuxStart_base (s : State) :
    (s.tmuxStart).base = s.base := rfl

@[simp] theorem State.tmuxStart_nextSeqNum (s : State) :
    (s.tmuxStart).nextSeqNum = s.nextSeqNum := rfl

@[simp] theorem State.tmuxStart_allSent (s : State) :
    (s.tmuxStart).allSent = s.allSent := rfl

@[simp] theorem State.tmuxStart_timerArmed (s : State) :
    (s.tmuxStart).timerArmed = true := rfl

@[simp] theorem State.tmuxStart_faultCode (s : State) :
    (s.tmuxStart).faultCode = s.faultCode := rfl

@[simp] theorem State.tmuxStart_startedThisCmd (s : State) :
    (s.tmuxStart).startedThisCmd = true := rfl

@[simp] theorem State.tmuxStart_orb (s : State) :
    (s.tmuxStart).orb = s.orb := rfl

@[simp] theorem State.tmuxStart_events (s : State) :
    (s.tmuxStart).events = s.events ++ [.tmr .start] := rfl

@[simp] theorem State.tmuxStart_rdData (s : State) :
    (s.tmuxStart).rdData = s.rdData := rfl

@[simp] theorem State.tmuxStart_host (s : State) :
    (s.tmuxStart).host = s.host := rfl

@[simp] theorem State.tmuxStart_env (s : State) :
    (s.tmuxStart).env = s.env := rfl

@[simp] theorem State.tmuxStart_orbEpoch (s : State) :
    (s.tmuxStart).orbEpoch = s.orbEpoch := rfl

/-! `TmuxStop` (R83) -/

@[simp] theorem State.tmuxStop_params (s : State) :
    (s.tmuxStop).params = s.params := rfl

@[simp] theorem State.tmuxStop_mode (s : State) :
    (s.tmuxStop).mode = s.mode := rfl

@[simp] theorem State.tmuxStop_base (s : State) :
    (s.tmuxStop).base = s.base := rfl

@[simp] theorem State.tmuxStop_nextSeqNum (s : State) :
    (s.tmuxStop).nextSeqNum = s.nextSeqNum := rfl

@[simp] theorem State.tmuxStop_allSent (s : State) :
    (s.tmuxStop).allSent = s.allSent := rfl

@[simp] theorem State.tmuxStop_timerArmed (s : State) :
    (s.tmuxStop).timerArmed = false := rfl

@[simp] theorem State.tmuxStop_faultCode (s : State) :
    (s.tmuxStop).faultCode = s.faultCode := rfl

@[simp] theorem State.tmuxStop_startedThisCmd (s : State) :
    (s.tmuxStop).startedThisCmd = s.startedThisCmd := rfl

@[simp] theorem State.tmuxStop_orb (s : State) :
    (s.tmuxStop).orb = s.orb := rfl

@[simp] theorem State.tmuxStop_events (s : State) :
    (s.tmuxStop).events = s.events ++ [.tmr .stop] := rfl

@[simp] theorem State.tmuxStop_rdData (s : State) :
    (s.tmuxStop).rdData = s.rdData := rfl

@[simp] theorem State.tmuxStop_host (s : State) :
    (s.tmuxStop).host = s.host := rfl

@[simp] theorem State.tmuxStop_env (s : State) :
    (s.tmuxStop).env = s.env := rfl

@[simp] theorem State.tmuxStop_orbEpoch (s : State) :
    (s.tmuxStop).orbEpoch = s.orbEpoch := rfl

/-! `RingWrite` (R36) -/

@[simp] theorem State.ringWrite_params (s : State) (i : Nat) (d : Datagram) :
    (s.ringWrite i d).params = s.params := rfl

@[simp] theorem State.ringWrite_mode (s : State) (i : Nat) (d : Datagram) :
    (s.ringWrite i d).mode = s.mode := rfl

@[simp] theorem State.ringWrite_base (s : State) (i : Nat) (d : Datagram) :
    (s.ringWrite i d).base = s.base := rfl

@[simp] theorem State.ringWrite_nextSeqNum (s : State) (i : Nat) (d : Datagram) :
    (s.ringWrite i d).nextSeqNum = s.nextSeqNum := rfl

@[simp] theorem State.ringWrite_allSent (s : State) (i : Nat) (d : Datagram) :
    (s.ringWrite i d).allSent = s.allSent := rfl

@[simp] theorem State.ringWrite_timerArmed (s : State) (i : Nat) (d : Datagram) :
    (s.ringWrite i d).timerArmed = s.timerArmed := rfl

@[simp] theorem State.ringWrite_faultCode (s : State) (i : Nat) (d : Datagram) :
    (s.ringWrite i d).faultCode = s.faultCode := rfl

@[simp] theorem State.ringWrite_startedThisCmd (s : State) (i : Nat) (d : Datagram) :
    (s.ringWrite i d).startedThisCmd = s.startedThisCmd := rfl

@[simp] theorem State.ringWrite_orb (s : State) (i : Nat) (d : Datagram) :
    (s.ringWrite i d).orb = s.orb.write i d := rfl

@[simp] theorem State.ringWrite_events (s : State) (i : Nat) (d : Datagram) :
    (s.ringWrite i d).events = s.events := rfl

@[simp] theorem State.ringWrite_rdData (s : State) (i : Nat) (d : Datagram) :
    (s.ringWrite i d).rdData = s.rdData := rfl

@[simp] theorem State.ringWrite_host (s : State) (i : Nat) (d : Datagram) :
    (s.ringWrite i d).host = s.host := rfl

@[simp] theorem State.ringWrite_env (s : State) (i : Nat) (d : Datagram) :
    (s.ringWrite i d).env = s.env := rfl

@[simp] theorem State.ringWrite_orbEpoch (s : State) (i : Nat) (d : Datagram) :
    (s.ringWrite i d).orbEpoch = s.orbEpoch := rfl

/-! Fault entry (R106, R123) -/

@[simp] theorem State.enterFault_params (s : State) (c : FaultCode) :
    (s.enterFault c).params = s.params := rfl

@[simp] theorem State.enterFault_mode (s : State) (c : FaultCode) :
    (s.enterFault c).mode = .faulted := rfl

@[simp] theorem State.enterFault_base (s : State) (c : FaultCode) :
    (s.enterFault c).base = s.base := rfl

@[simp] theorem State.enterFault_nextSeqNum (s : State) (c : FaultCode) :
    (s.enterFault c).nextSeqNum = s.nextSeqNum := rfl

@[simp] theorem State.enterFault_allSent (s : State) (c : FaultCode) :
    (s.enterFault c).allSent = s.allSent := rfl

@[simp] theorem State.enterFault_timerArmed (s : State) (c : FaultCode) :
    (s.enterFault c).timerArmed = s.timerArmed := rfl

@[simp] theorem State.enterFault_faultCode (s : State) (c : FaultCode) :
    (s.enterFault c).faultCode = c := rfl

@[simp] theorem State.enterFault_startedThisCmd (s : State) (c : FaultCode) :
    (s.enterFault c).startedThisCmd = s.startedThisCmd := rfl

@[simp] theorem State.enterFault_orb (s : State) (c : FaultCode) :
    (s.enterFault c).orb = s.orb := rfl

@[simp] theorem State.enterFault_events (s : State) (c : FaultCode) :
    (s.enterFault c).events = s.events := rfl

@[simp] theorem State.enterFault_rdData (s : State) (c : FaultCode) :
    (s.enterFault c).rdData = s.rdData := rfl

@[simp] theorem State.enterFault_host (s : State) (c : FaultCode) :
    (s.enterFault c).host = s.host := rfl

@[simp] theorem State.enterFault_env (s : State) (c : FaultCode) :
    (s.enterFault c).env = s.env := rfl

@[simp] theorem State.enterFault_orbEpoch (s : State) (c : FaultCode) :
    (s.enterFault c).orbEpoch = s.orbEpoch := rfl

/-! `Ask(stream_ok)` -/

@[simp] theorem State.askStreamOk_snd_params (s : State) :
    (s.askStreamOk.2).params = s.params := rfl

@[simp] theorem State.askStreamOk_snd_mode (s : State) :
    (s.askStreamOk.2).mode = s.mode := rfl

@[simp] theorem State.askStreamOk_snd_base (s : State) :
    (s.askStreamOk.2).base = s.base := rfl

@[simp] theorem State.askStreamOk_snd_nextSeqNum (s : State) :
    (s.askStreamOk.2).nextSeqNum = s.nextSeqNum := rfl

@[simp] theorem State.askStreamOk_snd_allSent (s : State) :
    (s.askStreamOk.2).allSent = s.allSent := rfl

@[simp] theorem State.askStreamOk_snd_timerArmed (s : State) :
    (s.askStreamOk.2).timerArmed = s.timerArmed := rfl

@[simp] theorem State.askStreamOk_snd_faultCode (s : State) :
    (s.askStreamOk.2).faultCode = s.faultCode := rfl

@[simp] theorem State.askStreamOk_snd_startedThisCmd (s : State) :
    (s.askStreamOk.2).startedThisCmd = s.startedThisCmd := rfl

@[simp] theorem State.askStreamOk_snd_orb (s : State) :
    (s.askStreamOk.2).orb = s.orb := rfl

@[simp] theorem State.askStreamOk_snd_events (s : State) :
    (s.askStreamOk.2).events = s.events := rfl

@[simp] theorem State.askStreamOk_snd_rdData (s : State) :
    (s.askStreamOk.2).rdData = s.rdData := rfl

@[simp] theorem State.askStreamOk_snd_host (s : State) :
    (s.askStreamOk.2).host = s.host := rfl

@[simp] theorem State.askStreamOk_snd_env (s : State) :
    (s.askStreamOk.2).env = s.env.askStreamOk.2 := rfl

@[simp] theorem State.askStreamOk_snd_orbEpoch (s : State) :
    (s.askStreamOk.2).orbEpoch = s.orbEpoch := rfl

/-! `Ask(chunk)` -/

@[simp] theorem State.askChunk_snd_params (s : State) :
    (s.askChunk.2).params = s.params := rfl

@[simp] theorem State.askChunk_snd_mode (s : State) :
    (s.askChunk.2).mode = s.mode := rfl

@[simp] theorem State.askChunk_snd_base (s : State) :
    (s.askChunk.2).base = s.base := rfl

@[simp] theorem State.askChunk_snd_nextSeqNum (s : State) :
    (s.askChunk.2).nextSeqNum = s.nextSeqNum := rfl

@[simp] theorem State.askChunk_snd_allSent (s : State) :
    (s.askChunk.2).allSent = s.allSent := rfl

@[simp] theorem State.askChunk_snd_timerArmed (s : State) :
    (s.askChunk.2).timerArmed = s.timerArmed := rfl

@[simp] theorem State.askChunk_snd_faultCode (s : State) :
    (s.askChunk.2).faultCode = s.faultCode := rfl

@[simp] theorem State.askChunk_snd_startedThisCmd (s : State) :
    (s.askChunk.2).startedThisCmd = s.startedThisCmd := rfl

@[simp] theorem State.askChunk_snd_orb (s : State) :
    (s.askChunk.2).orb = s.orb := rfl

@[simp] theorem State.askChunk_snd_events (s : State) :
    (s.askChunk.2).events = s.events := rfl

@[simp] theorem State.askChunk_snd_rdData (s : State) :
    (s.askChunk.2).rdData = s.rdData := rfl

@[simp] theorem State.askChunk_snd_host (s : State) :
    (s.askChunk.2).host = s.host := rfl

@[simp] theorem State.askChunk_snd_env (s : State) :
    (s.askChunk.2).env = s.env.askChunk.2 := rfl

@[simp] theorem State.askChunk_snd_orbEpoch (s : State) :
    (s.askChunk.2).orbEpoch = s.orbEpoch := rfl

/-! `Ask(rx)` -/

@[simp] theorem State.askRx_snd_params (s : State) :
    (s.askRx.2).params = s.params := rfl

@[simp] theorem State.askRx_snd_mode (s : State) :
    (s.askRx.2).mode = s.mode := rfl

@[simp] theorem State.askRx_snd_base (s : State) :
    (s.askRx.2).base = s.base := rfl

@[simp] theorem State.askRx_snd_nextSeqNum (s : State) :
    (s.askRx.2).nextSeqNum = s.nextSeqNum := rfl

@[simp] theorem State.askRx_snd_allSent (s : State) :
    (s.askRx.2).allSent = s.allSent := rfl

@[simp] theorem State.askRx_snd_timerArmed (s : State) :
    (s.askRx.2).timerArmed = s.timerArmed := rfl

@[simp] theorem State.askRx_snd_faultCode (s : State) :
    (s.askRx.2).faultCode = s.faultCode := rfl

@[simp] theorem State.askRx_snd_startedThisCmd (s : State) :
    (s.askRx.2).startedThisCmd = s.startedThisCmd := rfl

@[simp] theorem State.askRx_snd_orb (s : State) :
    (s.askRx.2).orb = s.orb := rfl

@[simp] theorem State.askRx_snd_events (s : State) :
    (s.askRx.2).events = s.events := rfl

@[simp] theorem State.askRx_snd_rdData (s : State) :
    (s.askRx.2).rdData = s.rdData := rfl

@[simp] theorem State.askRx_snd_host (s : State) :
    (s.askRx.2).host = s.host := rfl

@[simp] theorem State.askRx_snd_env (s : State) :
    (s.askRx.2).env = s.env.askRx.2 := rfl

@[simp] theorem State.askRx_snd_orbEpoch (s : State) :
    (s.askRx.2).orbEpoch = s.orbEpoch := rfl

/-! `Ask(tmr_expired)` -/

@[simp] theorem State.askExpired_snd_params (s : State) :
    (s.askExpired.2).params = s.params := rfl

@[simp] theorem State.askExpired_snd_mode (s : State) :
    (s.askExpired.2).mode = s.mode := rfl

@[simp] theorem State.askExpired_snd_base (s : State) :
    (s.askExpired.2).base = s.base := rfl

@[simp] theorem State.askExpired_snd_nextSeqNum (s : State) :
    (s.askExpired.2).nextSeqNum = s.nextSeqNum := rfl

@[simp] theorem State.askExpired_snd_allSent (s : State) :
    (s.askExpired.2).allSent = s.allSent := rfl

@[simp] theorem State.askExpired_snd_timerArmed (s : State) :
    (s.askExpired.2).timerArmed = s.timerArmed := rfl

@[simp] theorem State.askExpired_snd_faultCode (s : State) :
    (s.askExpired.2).faultCode = s.faultCode := rfl

@[simp] theorem State.askExpired_snd_startedThisCmd (s : State) :
    (s.askExpired.2).startedThisCmd = s.startedThisCmd := rfl

@[simp] theorem State.askExpired_snd_orb (s : State) :
    (s.askExpired.2).orb = s.orb := rfl

@[simp] theorem State.askExpired_snd_events (s : State) :
    (s.askExpired.2).events = s.events := rfl

@[simp] theorem State.askExpired_snd_rdData (s : State) :
    (s.askExpired.2).rdData = s.rdData := rfl

@[simp] theorem State.askExpired_snd_host (s : State) :
    (s.askExpired.2).host = s.host := rfl

@[simp] theorem State.askExpired_snd_env (s : State) :
    (s.askExpired.2).env = s.env.askExpired.2 := rfl

@[simp] theorem State.askExpired_snd_orbEpoch (s : State) :
    (s.askExpired.2).orbEpoch = s.orbEpoch := rfl

/-! Session creation (R94) -/

@[simp] theorem createSession_params (s : State) :
    (createSession s).params = s.params := rfl

@[simp] theorem createSession_mode (s : State) :
    (createSession s).mode = .active := rfl

@[simp] theorem createSession_base (s : State) :
    (createSession s).base = 0x0001#16 := rfl

@[simp] theorem createSession_nextSeqNum (s : State) :
    (createSession s).nextSeqNum = 0x0001#16 := rfl

@[simp] theorem createSession_allSent (s : State) :
    (createSession s).allSent = false := rfl

@[simp] theorem createSession_timerArmed (s : State) :
    (createSession s).timerArmed = false := rfl

@[simp] theorem createSession_faultCode (s : State) :
    (createSession s).faultCode = s.faultCode := rfl

@[simp] theorem createSession_startedThisCmd (s : State) :
    (createSession s).startedThisCmd = s.startedThisCmd := rfl

@[simp] theorem createSession_orb (s : State) :
    (createSession s).orb = s.orb := rfl

@[simp] theorem createSession_events (s : State) :
    (createSession s).events = s.events := rfl

@[simp] theorem createSession_rdData (s : State) :
    (createSession s).rdData = s.rdData := rfl

@[simp] theorem createSession_host (s : State) :
    (createSession s).host = s.host := rfl

@[simp] theorem createSession_env (s : State) :
    (createSession s).env = s.env := rfl

@[simp] theorem createSession_orbEpoch (s : State) :
    (createSession s).orbEpoch = s.orbEpoch := rfl

/-! Reset (R126, R32) -/

@[simp] theorem State.applyReset_params (s : State) :
    s.applyReset.params = s.params := rfl

@[simp] theorem State.applyReset_mode (s : State) :
    s.applyReset.mode = .idle := rfl

@[simp] theorem State.applyReset_base (s : State) :
    s.applyReset.base = 0x0001#16 := rfl

@[simp] theorem State.applyReset_nextSeqNum (s : State) :
    s.applyReset.nextSeqNum = 0x0001#16 := rfl

@[simp] theorem State.applyReset_allSent (s : State) :
    s.applyReset.allSent = false := rfl

@[simp] theorem State.applyReset_timerArmed (s : State) :
    s.applyReset.timerArmed = false := rfl

@[simp] theorem State.applyReset_faultCode (s : State) :
    s.applyReset.faultCode = .none := rfl

@[simp] theorem State.applyReset_startedThisCmd (s : State) :
    s.applyReset.startedThisCmd = false := rfl

@[simp] theorem State.applyReset_orb (s : State) :
    s.applyReset.orb = [] := rfl

@[simp] theorem State.applyReset_events (s : State) :
    s.applyReset.events = [] := rfl

@[simp] theorem State.applyReset_rdData (s : State) :
    s.applyReset.rdData = none := rfl

@[simp] theorem State.applyReset_host (s : State) :
    s.applyReset.host = s.host := rfl

@[simp] theorem State.applyReset_env (s : State) :
    s.applyReset.env = s.env := rfl

@[simp] theorem State.applyReset_orbEpoch (s : State) :
    s.applyReset.orbEpoch = s.orbEpoch + 1 := rfl

/-! The answers of the asks -/

@[simp] theorem State.askStreamOk_fst (s : State) : s.askStreamOk.1 = s.env.askStreamOk.1 := rfl

@[simp] theorem State.askChunk_fst (s : State) : s.askChunk.1 = s.env.askChunk.1 := rfl

@[simp] theorem State.askRx_fst (s : State) : s.askRx.1 = s.env.askRx.1 := rfl

@[simp] theorem State.askExpired_fst (s : State) : s.askExpired.1 = s.env.askExpired.1 := rfl

/-! The end of a phase -/

@[simp] theorem Flow.state_go (s : State) : (Flow.go s).state = s := rfl

@[simp] theorem Flow.state_stop (s : State) : (Flow.stop s).state = s := rfl

@[simp] theorem Flow.go_andThen (s : State) (g : State → Flow) : (Flow.go s).andThen g = g s := rfl

@[simp] theorem Flow.stop_andThen (s : State) (g : State → Flow) : (Flow.stop s).andThen g = .stop s := rfl

@[simp] theorem Flow.outcome_eq (f : Flow) : f.outcome = .next f.state := rfl

@[simp] theorem State.raiseFault_state (s : State) (c : FaultCode) :
    (s.raiseFault c).state = s.enterFault c := rfl

@[simp] theorem State.raiseFault_andThen (s : State) (c : FaultCode) (g : State → Flow) :
    (s.raiseFault c).andThen g = s.raiseFault c := rfl

end Sys2Proof.Machine
end

