-- ==== Sys2Proof/Laws/Orb.lean ====
section
/-! SUPPORT. The ORB (20_memory.md): a read after a write, the canonical form kept, and the slots of a window
being distinct (R46). -/

namespace Sys2Proof.Machine

@[simp] theorem Orb.read?_nil (i : Nat) : Orb.read? [] i = none := rfl

theorem Orb.read?_write (o : Orb) (i j : Nat) (d : Datagram) :
    (o.write i d).read? j = if j = i then some d else o.read? j := by
  induction o with
  | nil => simp [Orb.write, Orb.read?]
  | cons p rest ih =>
    obtain ⟨k, e⟩ := p
    simp only [Orb.write]
    by_cases hlt : i < k
    · simp [hlt, Orb.read?]
    · by_cases heq : i = k
      · subst heq
        by_cases hj : j = i <;> simp [Orb.read?, hj]
      · by_cases hj : j = k
        · subst hj
          simp [hlt, heq, Orb.read?, Ne.symm heq]
        · simp [hlt, heq, Orb.read?, hj, ih]

@[simp] theorem Orb.read?_write_same (o : Orb) (i : Nat) (d : Datagram) :
    (o.write i d).read? i = some d := by simp [Orb.read?_write]

theorem Orb.read?_write_other (o : Orb) {i j : Nat} (d : Datagram) (h : j ≠ i) :
    (o.write i d).read? j = o.read? j := by simp [Orb.read?_write, h]

theorem Orb.risingFrom_write (o : Orb) (lo i : Nat) (d : Datagram) (h : Orb.risingFrom lo o = true)
    (hi : lo ≤ i) : Orb.risingFrom lo (o.write i d) = true := by
  induction o generalizing lo with
  | nil => simp [Orb.write, Orb.risingFrom, hi]
  | cons p rest ih =>
    obtain ⟨k, e⟩ := p
    simp only [Orb.risingFrom, Bool.and_eq_true, decide_eq_true_eq] at h
    simp only [Orb.write]
    split
    · simp only [Orb.risingFrom, Bool.and_eq_true, decide_eq_true_eq]
      exact ⟨hi, by omega, h.2⟩
    · split
      · next hk => subst hk; simpa [Orb.risingFrom] using ⟨hi, h.2⟩
      · simp only [Orb.risingFrom, Bool.and_eq_true, decide_eq_true_eq]
        exact ⟨h.1, ih (k + 1) h.2 (by omega)⟩

theorem Orb.all_write (o : Orb) (i : Nat) (d : Datagram) (f : Nat × Datagram → Bool)
    (h : o.all f = true) (hi : f (i, d) = true) : (o.write i d).all f = true := by
  induction o with
  | nil => simp [Orb.write, hi]
  | cons p rest ih =>
    obtain ⟨k, e⟩ := p
    simp only [List.all_cons, Bool.and_eq_true] at h
    simp only [Orb.write]
    split
    · simp [hi, h.1, h.2]
    · split
      · simp [hi, h.2]
      · simp [h.1, ih h.2]

/-- After a write an entry is the new one or was there before. -/
theorem Orb.mem_write {o : Orb} {i : Nat} {d : Datagram} {e : Nat × Datagram} (h : e ∈ o.write i d) :
    e = (i, d) ∨ e ∈ o := by
  induction o with
  | nil => exact .inl (List.mem_singleton.mp h)
  | cons p rest ih =>
    obtain ⟨k, q⟩ := p
    simp only [Orb.write] at h
    split at h
    · simpa using h
    · split at h
      · rcases List.mem_cons.mp h with h | h
        · exact .inl h
        · exact .inr (List.mem_cons_of_mem _ h)
      · rcases List.mem_cons.mp h with h | h
        · exact .inr (h ▸ List.mem_cons_self)
        · exact (ih h).imp_right (List.mem_cons_of_mem _)

/-- Every write keeps the canonical form (R36). -/
theorem Orb.wf_write (o : Orb) (W i : Nat) (d : Datagram) (h : o.wf W = true) (hi : i < W) :
    (o.write i d).wf W = true := by
  simp only [Orb.wf, Bool.and_eq_true] at h ⊢
  exact ⟨Orb.risingFrom_write o 0 i d h.1 (Nat.zero_le _),
    Orb.all_write o i d _ h.2 (by simpa using hi)⟩

theorem State.resetOf_orb_wf (p : Params) : (State.resetOf p).orb.wf p.W = true := rfl

/-- R37: every sequence number has a slot of the ring. -/
theorem slotOf_lt (p : Params) (k : Nat) : slotOf p k < p.W := Nat.mod_lt _ p.W_bounds.1

/-- R46: two numbers of one window have different slots. -/
theorem slotOf_ne (p : Params) {j k : Nat} (hjk : j < k) (hW : k < j + p.W) : slotOf p j ≠ slotOf p k := by
  intro h
  have hd : p.W ∣ k - j := (Nat.modEq_iff_dvd' hjk.le).mp h
  have := Nat.le_of_dvd (by omega) hd
  omega

theorem State.ringRead_of_read? {s : State} {i : Nat} {d : Datagram} (h : s.orb.read? i = some d) :
    s.ringRead i = d := by simp [State.ringRead, h]

theorem State.ringRead_ringWrite (s : State) (i j : Nat) (d : Datagram) :
    (s.ringWrite i d).ringRead j = if j = i then d else s.ringRead j := by
  by_cases h : j = i <;> simp [State.ringRead, Orb.read?_write, h]

end Sys2Proof.Machine
end

