-- ==== Sys2Proof/Laws/PerInstr.lean ====
section
/-! SUPPORT. Facts about every command as syntax, one lemma per constructor: the word of a well-formed command
is legal by the test of 44_session_control.md rule R92. -/

namespace Sys2Proof.Laws.EncodesLegal

def Statement (i : Instr) : Prop := i.wf = true → legalWord (encode i) = true

theorem nop : Statement .nop := by unfold Statement; decide

theorem openSession : Statement .openSession := by unfold Statement; decide

theorem tick : Statement .tick := by unfold Statement; decide

theorem send : Statement .send := by unfold Statement; decide

theorem recv : Statement .recv := by unfold Statement; decide

theorem tmo : Statement .tmo := by unfold Statement; decide

theorem term : Statement .term := by unfold Statement; decide

theorem rdreg (n : BitVec 4) : Statement (.rdreg n) := by
  unfold Statement
  revert n
  decide

end Sys2Proof.Laws.EncodesLegal
end

