-- ==== Sys2Proof/Laws/Phases.lean ====
section
/-! SUPPORT. Everything each phase can do, said once (41_send.md, 42_ack_receive.md,
43_timeout_retransmit.md, 44_session_control.md), for later proofs to cite instead of unfolding it. -/

namespace Sys2Proof.Machine

/-! The derived predicates as facts about the registers (R12) -/

theorem State.filling_iff (s : State) :
    s.filling = true ↔ s.nextSeqNum.toNat < s.base.toNat + s.params.W ∧ s.allSent = false := by
  simp [State.filling]

theorem State.done_iff (s : State) : s.done = true ↔ s.allSent = true ∧ s.base = s.nextSeqNum := by
  simp [State.done]

/-- Filling implies the capacity check of R75, in every state. -/
theorem State.outstanding_lt_of_filling {s : State} (h : s.filling = true) : s.outstanding < s.params.W := by
  have h1 := (s.filling_iff.mp h).1
  have := s.params.W_bounds.1
  simp only [State.outstanding]
  omega

@[simp] theorem State.beginCommand_filling (s : State) : s.beginCommand.filling = s.filling := rfl

@[simp] theorem State.beginCommand_done (s : State) : s.beginCommand.done = s.done := rfl

@[simp] theorem State.beginCommand_outstanding (s : State) : s.beginCommand.outstanding = s.outstanding := rfl

theorem State.beginCommand_readReg (s : State) (r : ReadReg) : s.beginCommand.readReg r = s.readReg r := by
  cases r <;> rfl

theorem ackValid_iff (r : Datagram) :
    ackValid r = true ↔ Config.Ck r.seqNum r.ackNum r.payloadLength r.payload = r.checksum := by
  simp [ackValid]

/-- A framed datagram says the whole length of its chunk (R63). -/
@[simp] theorem frameData_payloadLength_toNat (seq : U16) (c : Chunk) :
    (frameData seq c).payloadLength.toNat = c.bytes.length := c.length_eq.symm

/-! The send phase -/

/-- What the timer's part of the send phase leaves, field by field (R74). -/
theorem startIfEmpty_eq (s : State) :
    startIfEmpty s = { s with
      events := s.events ++ (if s.base = s.nextSeqNum then [PortEvent.tmr .start] else [])
      timerArmed := if s.base = s.nextSeqNum then true else s.timerArmed
      startedThisCmd := if s.base = s.nextSeqNum then true else s.startedThisCmd } := by
  by_cases h : s.base = s.nextSeqNum <;> simp [startIfEmpty, State.tmuxStart, h]

/-- What a transmitted chunk leaves, field by field (R71 to R74). -/
theorem transmitChunk_eq (c : Chunk) (s : State) :
    transmitChunk c s = { s with
      orb := s.orb.write (slotOf s.params s.nextSeqNum.toNat) (frameData s.nextSeqNum c)
      events := s.events ++ ([PortEvent.tx .new (frameData s.nextSeqNum c)] ++
        (if s.base = s.nextSeqNum then [PortEvent.tmr .start] else []))
      timerArmed := if s.base = s.nextSeqNum then true else s.timerArmed
      startedThisCmd := if s.base = s.nextSeqNum then true else s.startedThisCmd
      nextSeqNum := toU16 (s.nextSeqNum.toNat + 1)
      allSent := s.allSent || shortChunk s.params c } := by
  simp [transmitChunk, startIfEmpty_eq, State.emit, State.ringWrite]

/-- The four ways the send phase ends. RING_OVERWRITE is not among them: Filling excludes it (R75). -/
theorem sendPhase_cases (s : State) :
    (s.filling = false ∧ sendPhase s = .go s) ∨
    (s.filling = true ∧ s.nextSeqNum = 0xFFFF#16 ∧ sendPhase s = s.raiseFault .seqOverflow) ∨
    (s.filling = true ∧ s.nextSeqNum ≠ 0xFFFF#16 ∧ s.params.M < s.env.askChunk.1.bytes.length ∧
      sendPhase s = s.askChunk.2.raiseFault .chunkLen) ∨
    (s.filling = true ∧ s.nextSeqNum ≠ 0xFFFF#16 ∧ s.env.askChunk.1.bytes.length ≤ s.params.M ∧
      sendPhase s = .go (transmitChunk s.env.askChunk.1 s.askChunk.2)) := by
  by_cases hf : s.filling = true
  · have hr := Nat.not_le.mpr (State.outstanding_lt_of_filling hf)
    by_cases hn : s.nextSeqNum = 0xFFFF#16
    · simp [sendPhase, hf, hn]
    · by_cases hl : s.params.M < s.env.askChunk.1.bytes.length
      · simp [sendPhase, hf, hn, hr, checkChunk, hl]
      · simp [sendPhase, hf, hn, hr, checkChunk, hl, Nat.not_lt.mp hl]
  · simp [sendPhase, hf]

theorem sendPhase_of_not_filling {s : State} (h : s.filling = false) : sendPhase s = .go s := by
  simp [sendPhase, h]

theorem sendPhase_at_limit {s : State} (h : s.filling = true) (hn : s.nextSeqNum = 0xFFFF#16) :
    sendPhase s = s.raiseFault .seqOverflow := by
  simp [sendPhase, h, hn]

theorem sendPhase_checks {s : State} (h : s.filling = true) (hn : s.nextSeqNum ≠ 0xFFFF#16) :
    sendPhase s = checkChunk s.env.askChunk.1 s.askChunk.2 := by
  simp [sendPhase, h, hn, Nat.not_le.mpr (State.outstanding_lt_of_filling h)]

/-- The register value after the increment (R72). -/
theorem toNat_succ_of_ne {n : U16} (h : n ≠ 0xFFFF#16) : (toU16 (n.toNat + 1)).toNat = n.toNat + 1 := by
  have h1 : n.toNat ≠ 65535 := fun h' => h (BitVec.eq_of_toNat_eq h')
  have h2 := n.isLt
  simp only [toU16, BitVec.toNat_ofNat]
  omega

/-! The receive phase -/

/-- What the timer's part of the receive phase leaves, field by field (R81). -/
theorem retimeAfterAck_eq (s : State) :
    retimeAfterAck s = { s with
      events := s.events ++ [PortEvent.tmr (if s.base = s.nextSeqNum then .stop else .start)]
      timerArmed := decide (s.base ≠ s.nextSeqNum)
      startedThisCmd := if s.base = s.nextSeqNum then s.startedThisCmd else true } := by
  by_cases h : s.base = s.nextSeqNum <;> simp [retimeAfterAck, State.tmuxStart, State.tmuxStop, h]

/-- A datagram the receive phase drops (R79). -/
def discards (s : State) (r : Datagram) : Prop := ackValid r = false ∨ r.ackNum.toNat < s.base.toNat

/-- The four ways the receive phase ends (R77 to R81). -/
theorem recvPhase_cases (s : State) :
    (s.env.askRx.1 = none ∧ recvPhase s = .go s.askRx.2) ∨
    (∃ r, s.env.askRx.1 = some r ∧ discards s r ∧ recvPhase s = .go s.askRx.2) ∨
    (∃ r, s.env.askRx.1 = some r ∧ ackValid r = true ∧ s.base.toNat ≤ r.ackNum.toNat ∧
      s.nextSeqNum.toNat ≤ r.ackNum.toNat ∧ recvPhase s = s.askRx.2.raiseFault .ackRange) ∨
    (∃ r, s.env.askRx.1 = some r ∧ ackValid r = true ∧ s.base.toNat ≤ r.ackNum.toNat ∧
      r.ackNum.toNat < s.nextSeqNum.toNat ∧
      recvPhase s = .go (retimeAfterAck { s.askRx.2 with base := toU16 (r.ackNum.toNat + 1) })) := by
  cases hr : s.env.askRx.1 with
  | none => simp [recvPhase, hr]
  | some r =>
    by_cases hv : ackValid r = true
    · by_cases hs : r.ackNum.toNat < s.base.toNat
      · simp [recvPhase, hr, processAck, ackNumOf, hv, hs, discards]
      · by_cases ho : s.nextSeqNum.toNat ≤ r.ackNum.toNat
        · simp [recvPhase, hr, processAck, ackNumOf, hv, hs, ho, Nat.not_lt.mp hs]
        · simp [recvPhase, hr, processAck, ackNumOf, hv, hs, ho, Nat.not_lt.mp hs, Nat.not_le.mp ho]
    · simp [recvPhase, hr, processAck, hv, discards]

theorem recvPhase_advance {s : State} {r : Datagram} (hr : s.env.askRx.1 = some r) (hv : ackValid r = true)
    (h1 : s.base.toNat ≤ r.ackNum.toNat) (h2 : r.ackNum.toNat < s.nextSeqNum.toNat) :
    recvPhase s = .go (retimeAfterAck { s.askRx.2 with base := toU16 (r.ackNum.toNat + 1) }) := by
  simp [recvPhase, hr, processAck, ackNumOf, hv, Nat.not_lt.mpr h1, Nat.not_le.mpr h2]

theorem recvPhase_drop {s : State}
    (h : ∀ r, s.env.askRx.1 = some r → ackValid r = false ∨ r.ackNum.toNat < s.base.toNat) :
    recvPhase s = .go s.askRx.2 := by
  rcases recvPhase_cases s with ⟨_, h2⟩ | ⟨r, _, _, h2⟩ | ⟨r, h1, h2, h3, _, _⟩ | ⟨r, h1, h2, h3, _, _⟩
  · exact h2
  · exact h2
  all_goals
    rcases h r h1 with h' | h'
    · rw [h2] at h'; cases h'
    · omega

/-- The register value after an advance of the base (R78). -/
theorem toNat_ackNum_succ {a n : U16} (h : a.toNat < n.toNat) : (toU16 (a.toNat + 1)).toNat = a.toNat + 1 := by
  have := n.isLt
  simp only [toU16, BitVec.toNat_ofNat]
  omega

/-! The timeout phase -/

/-- The gate asks only an armed timer not started in this command (R84). -/
theorem State.expiredEff_cases (s : State) :
    ((s.timerArmed = false ∨ s.startedThisCmd = true) ∧ s.expiredEff = (false, s)) ∨
    (s.timerArmed = true ∧ s.startedThisCmd = false ∧ s.expiredEff = s.askExpired) := by
  cases h : s.timerArmed <;> cases h' : s.startedThisCmd <;> simp [State.expiredEff, h, h']

/-- What a retransmission leaves, field by field (R85, R87, R91). -/
theorem retransmitWindow_eq (s : State) :
    retransmitWindow s = { s with
      events := s.events ++ retransmissions s ++ [PortEvent.tmr .start]
      timerArmed := true
      startedThisCmd := true } := rfl

/-- The three ways the timeout phase ends (R85). -/
theorem timeoutPhase_cases (s : State) :
    ((s.timerArmed = false ∨ s.startedThisCmd = true) ∧ timeoutPhase s = .go s) ∨
    (s.timerArmed = true ∧ s.startedThisCmd = false ∧ s.env.askExpired.1 = false ∧
      timeoutPhase s = .go s.askExpired.2) ∨
    (s.timerArmed = true ∧ s.startedThisCmd = false ∧ s.env.askExpired.1 = true ∧
      timeoutPhase s = .go (retransmitWindow s.askExpired.2)) := by
  rcases s.expiredEff_cases with ⟨hg, he⟩ | ⟨ha, hs, he⟩
  · exact .inl ⟨hg, by simp [timeoutPhase, he]⟩
  · cases hx : s.env.askExpired.1 <;> simp [timeoutPhase, he, ha, hs, hx]

/-! What each phase never touches, however it ends -/

theorem sendPhase_frame (s : State) :
    (sendPhase s).state.params = s.params ∧ (sendPhase s).state.base = s.base ∧
    (sendPhase s).state.rdData = s.rdData ∧ (sendPhase s).state.host = s.host ∧
    (sendPhase s).state.orbEpoch = s.orbEpoch := by
  rcases sendPhase_cases s with ⟨_, h⟩ | ⟨_, _, h⟩ | ⟨_, _, _, h⟩ | ⟨_, _, _, h⟩ <;> rw [h] <;>
    simp [transmitChunk_eq]

theorem recvPhase_frame (s : State) :
    (recvPhase s).state.params = s.params ∧ (recvPhase s).state.nextSeqNum = s.nextSeqNum ∧
    (recvPhase s).state.allSent = s.allSent ∧ (recvPhase s).state.orb = s.orb ∧
    (recvPhase s).state.rdData = s.rdData ∧ (recvPhase s).state.host = s.host ∧
    (recvPhase s).state.orbEpoch = s.orbEpoch ∧ (recvPhase s).state.tx = s.tx := by
  rcases recvPhase_cases s with ⟨_, h⟩ | ⟨_, _, _, h⟩ | ⟨_, _, _, _, _, h⟩ | ⟨_, _, _, _, _, h⟩ <;> rw [h] <;>
    simp [retimeAfterAck_eq, State.tx]

theorem timeoutPhase_frame (s : State) :
    (timeoutPhase s).state.params = s.params ∧ (timeoutPhase s).state.mode = s.mode ∧
    (timeoutPhase s).state.base = s.base ∧ (timeoutPhase s).state.nextSeqNum = s.nextSeqNum ∧
    (timeoutPhase s).state.allSent = s.allSent ∧ (timeoutPhase s).state.timerArmed = s.timerArmed ∧
    (timeoutPhase s).state.faultCode = s.faultCode ∧ (timeoutPhase s).state.orb = s.orb ∧
    (timeoutPhase s).state.rdData = s.rdData ∧ (timeoutPhase s).state.host = s.host ∧
    (timeoutPhase s).state.orbEpoch = s.orbEpoch := by
  rcases timeoutPhase_cases s with ⟨_, h⟩ | ⟨_, _, _, h⟩ | ⟨ha, _, _, h⟩ <;> rw [h] <;>
    simp [retransmitWindow_eq]
  exact ha

/-! The terminal phase and OPEN -/

/-- What the terminal phase leaves (R97). -/
theorem termPhase_eq (s : State) :
    termPhase s = .go { s with
      events := s.events ++ [PortEvent.tx .term (frameTerm s.nextSeqNum)], mode := .terminated } := rfl

/-- The two ways OPEN ends in IDLE (R94). -/
theorem openPhase_cases (s : State) :
    (s.env.askStreamOk.1 = true ∧ openPhase s = .go (createSession s.askStreamOk.2)) ∨
    (s.env.askStreamOk.1 = false ∧ openPhase s = s.askStreamOk.2.raiseFault .fatalOpen) := by
  cases h : s.env.askStreamOk.1 <;> simp [openPhase, h]

/-! The mode checks -/

/-- What SEND, RECV and TMO do before their phase (R76, R82, R88). -/
theorem State.whenActive_cases (s : State) (phase : State → Flow) :
    (s.mode = .active ∧ s.whenActive phase = phase s) ∨
    (s.mode = .faulted ∧ s.whenActive phase = .go s) ∨
    ((s.mode = .idle ∨ s.mode = .terminated) ∧ s.whenActive phase = s.raiseFault .cmdState) := by
  cases h : s.mode <;> simp [State.whenActive, h]

/-- What an illegal word does (R51, R92, R101). -/
theorem State.illegalCommand_cases (s : State) :
    (s.mode = .faulted ∧ s.illegalCommand = .go s.beginCommand) ∨
    (s.mode ≠ .faulted ∧ s.illegalCommand = s.beginCommand.raiseFault .illegalCmd) := by
  cases h : s.mode <;> simp [State.illegalCommand, h]

end Sys2Proof.Machine
end

