-- ==== Sys2Proof/Laws/Step.lean ====
section
/-! SUPPORT. The cases of a step, of the dispatch and of TICK's phases, for later proofs to cite. -/

namespace Sys2Proof.Machine

theorem step_of_host_nil {s : State} (h : s.host = []) : step s = .next s := by
  simp [step, State.nextInput, h]

theorem step_of_host_reset {s : State} {rest : List HostInput} (h : s.host = .reset :: rest) :
    step s = .next ({ s with host := rest } : State).applyReset := by
  simp [step, State.nextInput, h]

theorem step_of_host_cmd {s : State} {w : Byte} {rest : List HostInput} (h : s.host = .cmd w :: rest) :
    step s = execute w { s with host := rest } := by
  simp [step, State.nextInput, h]

theorem execute_of_ok {w : Byte} {i : Instr} (h : decode w = .ok i) (s : State) : execute w s = exec i s := by
  simp [execute, h]

theorem execute_of_error {w : Byte} {e : DecodeError} (h : decode w = .error e) (s : State) :
    execute w s = .next s.illegalCommand.state := by
  simp [execute, h]

/-- What a command runs, as a phase result on the state it starts from (R92, R104). -/
def commandFlow (i : Instr) (s : State) : Flow :=
  let s := s.beginCommand
  match i with
  | .nop => .go s
  | .openSession => match s.mode with
    | .faulted => .go s
    | .idle => openPhase s
    | .active => s.raiseFault .cmdState
    | .terminated => s.raiseFault .cmdState
  | .tick => match s.mode with
    | .faulted => .go s
    | .terminated => .go s
    | .idle => s.raiseFault .cmdState
    | .active => tickPhases s
  | .send => s.whenActive sendPhase
  | .recv => s.whenActive recvPhase
  | .tmo => s.whenActive timeoutPhase
  | .term => match s.mode with
    | .faulted => .go s
    | .idle => s.raiseFault .cmdState
    | .terminated => s.raiseFault .cmdState
    | .active => if s.done then termPhase s else s.raiseFault .cmdState
  | .rdreg n => match regOfIndex n with
    | some r => .go { s with rdData := some (s.readReg r) }
    | none => s.illegalCommand

theorem exec_eq_commandFlow (i : Instr) (s : State) : exec i s = .next (commandFlow i s).state := by
  cases i with
  | rdreg n =>
    show execRdreg n s = _
    cases h : regOfIndex n <;> simp [execRdreg, commandFlow, h, State.illegalCommand, State.beginCommand]
  | _ => rfl

/-! A property kept by every phase is kept by every command -/

/-- A phase that returns leaves the mode (R107: only a fault or the terminal phase changes it). -/
theorem sendPhase_go_mode {s u : State} (h : sendPhase s = .go u) : u.mode = s.mode := by
  rcases sendPhase_cases s with ⟨_, h'⟩ | ⟨_, _, h'⟩ | ⟨_, _, _, h'⟩ | ⟨_, _, _, h'⟩ <;> rw [h'] at h <;>
    cases h <;> simp [transmitChunk_eq]

theorem recvPhase_go_mode {s u : State} (h : recvPhase s = .go u) : u.mode = s.mode := by
  rcases recvPhase_cases s with ⟨_, h'⟩ | ⟨_, _, _, h'⟩ | ⟨_, _, _, _, _, h'⟩ | ⟨_, _, _, _, _, h'⟩ <;>
    rw [h'] at h <;> cases h <;> simp [retimeAfterAck_eq]

/-- What the start of a command, a fault entry, the read of a register and each phase keep, a command
keeps. -/
theorem commandFlow_keeps (P : State → Prop) (i : Instr) (s : State) (hbegin : P s.beginCommand)
    (hfault : ∀ u c, P u → P (u.enterFault c)) (hread : ∀ u v, P u → P { u with rdData := v })
    (hopen : ∀ u, u.mode = .idle → P u → P (openPhase u).state)
    (hsend : ∀ u, u.mode = .active → P u → P (sendPhase u).state)
    (hrecv : ∀ u, u.mode = .active → P u → P (recvPhase u).state)
    (htmo : ∀ u, u.mode = .active → P u → P (timeoutPhase u).state)
    (hterm : ∀ u, u.mode = .active → u.done = true → P u → P (termPhase u).state) :
    P (commandFlow i s).state := by
  have hwhen : ∀ phase : State → Flow, (∀ u, u.mode = .active → P u → P (phase u).state) →
      P (s.beginCommand.whenActive phase).state := by
    intro phase hp
    rcases s.beginCommand.whenActive_cases phase with ⟨hm, he⟩ | ⟨_, he⟩ | ⟨_, he⟩ <;> rw [he]
    · exact hp _ hm hbegin
    · exact hbegin
    · exact hfault _ _ hbegin
  cases i with
  | nop => exact hbegin
  | openSession =>
    simp only [commandFlow]
    cases hm : s.beginCommand.mode
    · exact hopen _ hm hbegin
    · exact hfault _ _ hbegin
    · exact hfault _ _ hbegin
    · exact hbegin
  | tick =>
    simp only [commandFlow]
    cases hm : s.beginCommand.mode
    · exact hfault _ _ hbegin
    · show P (tickPhases s.beginCommand).state
      cases hd : s.done
      · have h1 := hsend _ hm hbegin
        cases hs : sendPhase s.beginCommand with
        | stop u => simpa [tickPhases, hd, hs] using h1
        | go u =>
          rw [hs] at h1
          have hu := (sendPhase_go_mode hs).trans hm
          have h2 := hrecv _ hu h1
          cases hr : recvPhase u with
          | stop v => rw [hr] at h2; simpa [tickPhases, hd, hs, hr] using h2
          | go v =>
            rw [hr] at h2
            simpa [tickPhases, hd, hs, hr] using htmo _ ((recvPhase_go_mode hr).trans hu) h2
      · simpa [tickPhases, hd] using hterm _ hm hd hbegin
    · exact hbegin
    · exact hbegin
  | send => exact hwhen _ hsend
  | recv => exact hwhen _ hrecv
  | tmo => exact hwhen _ htmo
  | term =>
    simp only [commandFlow]
    cases hm : s.beginCommand.mode
    · exact hfault _ _ hbegin
    · cases hd : s.done
      · simpa [hd] using hfault _ .cmdState hbegin
      · simpa [hd] using hterm _ hm hd hbegin
    · exact hfault _ _ hbegin
    · exact hbegin
  | rdreg n =>
    simp only [commandFlow]
    cases regOfIndex n with
    | some r => exact hread _ _ hbegin
    | none =>
      show P s.beginCommand.illegalCommand.state
      rcases s.beginCommand.illegalCommand_cases with ⟨_, he⟩ | ⟨_, he⟩ <;> rw [he]
      · exact hbegin
      · exact hfault _ _ hbegin

/-- The three ways a step goes. -/
theorem step_cases {s t : State} (h : step s = .next t) :
    (s.host = [] ∧ t = s) ∨
    (∃ rest, s.host = .reset :: rest ∧ t = ({ s with host := rest } : State).applyReset) ∨
    (∃ w rest i, s.host = .cmd w :: rest ∧ decode w = .ok i ∧
      t = (commandFlow i { s with host := rest }).state) ∨
    (∃ w rest e, s.host = .cmd w :: rest ∧ decode w = .error e ∧
      t = ({ s with host := rest } : State).illegalCommand.state) := by
  cases hh : s.host with
  | nil => rw [step_of_host_nil hh] at h; injection h with h; exact .inl ⟨rfl, h.symm⟩
  | cons a rest =>
    cases a with
    | reset =>
      rw [step_of_host_reset hh] at h
      injection h with h
      exact .inr (.inl ⟨rest, rfl, h.symm⟩)
    | cmd w =>
      rw [step_of_host_cmd hh] at h
      cases hd : decode w with
      | ok i =>
        rw [execute_of_ok hd, exec_eq_commandFlow] at h
        injection h with h
        exact .inr (.inr (.inl ⟨w, rest, i, rfl, hd, h.symm⟩))
      | error e =>
        rw [execute_of_error hd] at h
        injection h with h
        exact .inr (.inr (.inr ⟨w, rest, e, rfl, hd, h.symm⟩))

/-! The phase commands and TICK in ACTIVE -/

theorem exec_send_of_active {s : State} (h : s.mode = .active) :
    exec .send s = .next (sendPhase s.beginCommand).state := by
  simp [exec, execSend, State.whenActive, h]

theorem exec_recv_of_active {s : State} (h : s.mode = .active) :
    exec .recv s = .next (recvPhase s.beginCommand).state := by
  simp [exec, execRecv, State.whenActive, h]

theorem exec_tmo_of_active {s : State} (h : s.mode = .active) :
    exec .tmo s = .next (timeoutPhase s.beginCommand).state := by
  simp [exec, execTmo, State.whenActive, h]

theorem exec_tick_of_done {s : State} (h : s.mode = .active) (hd : s.done = true) :
    exec .tick s = .next (termPhase s.beginCommand).state := by
  simp [exec, execTick, h, tickPhases, hd]

theorem exec_tick_of_active {s : State} (h : s.mode = .active) (hd : s.done = false) :
    exec .tick s =
      .next (((sendPhase s.beginCommand).andThen recvPhase).andThen timeoutPhase).state := by
  simp [exec, execTick, h, tickPhases, hd]

/-- How far a TICK outside Done gets (R95, R107). -/
theorem exec_tick_cases {s t : State} (h : s.mode = .active) (hd : s.done = false) (ht : exec .tick s = .next t) :
    (sendPhase s.beginCommand = .stop t) ∨
    (∃ u, sendPhase s.beginCommand = .go u ∧ recvPhase u = .stop t) ∨
    (∃ u v, sendPhase s.beginCommand = .go u ∧ recvPhase u = .go v ∧ t = (timeoutPhase v).state) := by
  rw [exec_tick_of_active h hd] at ht
  injection ht with ht
  cases hs : sendPhase s.beginCommand with
  | stop u => rw [hs] at ht; exact .inl (congrArg Flow.stop ht)
  | go u =>
    rw [hs] at ht
    cases hr : recvPhase u with
    | stop v => rw [Flow.go_andThen, hr] at ht; exact .inr (.inl ⟨u, rfl, hr.trans (congrArg Flow.stop ht)⟩)
    | go v => rw [Flow.go_andThen, hr] at ht; exact .inr (.inr ⟨u, v, rfl, hr, ht.symm⟩)

/-- Everything a command can do, in one list; `exec_tick_cases` says what its last entry does. -/
theorem exec_cases {i : Instr} {s t : State} (ht : exec i s = .next t) :
    (t = s.beginCommand) ∨
    (∃ c, c ≠ .none ∧ c ≠ .ringOverwrite ∧ s.mode ≠ .faulted ∧ t = s.beginCommand.enterFault c) ∨
    (∃ n r, i = .rdreg n ∧ regOfIndex n = some r ∧ t = { s.beginCommand with rdData := some (s.readReg r) }) ∨
    (i = .openSession ∧ s.mode = .idle ∧ t = (openPhase s.beginCommand).state) ∨
    ((i = .tick ∨ i = .term) ∧ s.mode = .active ∧ s.done = true ∧ t = (termPhase s.beginCommand).state) ∨
    (i = .send ∧ s.mode = .active ∧ t = (sendPhase s.beginCommand).state) ∨
    (i = .recv ∧ s.mode = .active ∧ t = (recvPhase s.beginCommand).state) ∨
    (i = .tmo ∧ s.mode = .active ∧ t = (timeoutPhase s.beginCommand).state) ∨
    (i = .tick ∧ s.mode = .active ∧ s.done = false) := by
  rw [exec_eq_commandFlow] at ht
  injection ht with ht
  subst ht
  cases i with
  | nop => exact .inl rfl
  | rdreg n =>
    cases hr : regOfIndex n with
    | some r =>
      refine .inr (.inr (.inl ⟨n, r, rfl, hr, ?_⟩))
      simp [commandFlow, hr, State.beginCommand_readReg]
    | none =>
      have he : (commandFlow (.rdreg n) s).state = s.illegalCommand.state := by
        simp [commandFlow, hr, State.illegalCommand, State.beginCommand]
      rw [he]
      rcases s.illegalCommand_cases with ⟨_, h⟩ | ⟨hm, h⟩ <;> rw [h]
      · exact .inl rfl
      · exact .inr (.inl ⟨_, by decide, by decide, hm, rfl⟩)
  | openSession =>
    cases hm : s.mode
    · exact .inr (.inr (.inr (.inl ⟨rfl, rfl, by simp [commandFlow, hm]⟩)))
    · exact .inr (.inl ⟨.cmdState, by decide, by decide, by decide, by simp [commandFlow, hm]⟩)
    · exact .inr (.inl ⟨.cmdState, by decide, by decide, by decide, by simp [commandFlow, hm]⟩)
    · exact .inl (by simp [commandFlow, hm])
  | tick =>
    cases hm : s.mode
    · exact .inr (.inl ⟨.cmdState, by decide, by decide, by decide, by simp [commandFlow, hm]⟩)
    · cases hd : s.done
      · simp
      · exact .inr (.inr (.inr (.inr (.inl ⟨.inl rfl, rfl, rfl, by simp [commandFlow, hm, tickPhases, hd]⟩))))
    · exact .inl (by simp [commandFlow, hm])
    · exact .inl (by simp [commandFlow, hm])
  | term =>
    cases hm : s.mode
    · exact .inr (.inl ⟨.cmdState, by decide, by decide, by decide, by simp [commandFlow, hm]⟩)
    · cases hd : s.done
      · exact .inr (.inl ⟨.cmdState, by decide, by decide, by decide, by simp [commandFlow, hm, hd]⟩)
      · exact .inr (.inr (.inr (.inr (.inl ⟨.inr rfl, rfl, rfl, by simp [commandFlow, hm, hd]⟩))))
    · exact .inr (.inl ⟨.cmdState, by decide, by decide, by decide, by simp [commandFlow, hm]⟩)
    · exact .inl (by simp [commandFlow, hm])
  | send =>
    rcases s.beginCommand.whenActive_cases sendPhase with ⟨hm, he⟩ | ⟨_, he⟩ | ⟨hm, he⟩ <;>
      simp only [commandFlow, he]
    · simp_all
    · exact .inl rfl
    · exact .inr (.inl ⟨_, by decide, by decide, by rcases hm with h | h <;> simp_all, rfl⟩)
  | recv =>
    rcases s.beginCommand.whenActive_cases recvPhase with ⟨hm, he⟩ | ⟨_, he⟩ | ⟨hm, he⟩ <;>
      simp only [commandFlow, he]
    · simp_all
    · exact .inl rfl
    · exact .inr (.inl ⟨_, by decide, by decide, by rcases hm with h | h <;> simp_all, rfl⟩)
  | tmo =>
    rcases s.beginCommand.whenActive_cases timeoutPhase with ⟨hm, he⟩ | ⟨_, he⟩ | ⟨hm, he⟩ <;>
      simp only [commandFlow, he]
    · simp_all
    · exact .inl rfl
    · exact .inr (.inl ⟨_, by decide, by decide, by rcases hm with h | h <;> simp_all, rfl⟩)

theorem exec_inj {i : Instr} {s t u : State} (h : exec i s = .next t) (h' : exec i s = .next u) : t = u := by
  rw [h] at h'
  injection h'

end Sys2Proof.Machine
end

