-- ==== Sys2Proof/Tests/Slice0.lean ====
section
/-! SUPPORT. Tests. Expected values are the vectors of 95_test_vectors.md, named in each docstring (S3 is row S3
of L2-3, A4 row A4 of L2-4, and so on), or hand calculation from the rule named. Then, for every obligation
with hypotheses, a state and operands that meet them. -/

namespace Sys2Proof.Tests

open Sys2Proof Sys2Proof.Machine

/-- W = 3, M = 4. -/
def p34 : Params := ⟨3, 4, by decide, by decide⟩

/-- W = 10, M = 4. -/
def p104 : Params := ⟨10, 4, by decide, by decide⟩

/-- A state `(mode, base, next, allSent, armed, fault)` of 95_test_vectors.md. -/
def st (p : Params) (m : Mode) (b n : U16) (a t : Bool) (f : FaultCode) : State :=
  { State.resetOf p with mode := m, base := b, nextSeqNum := n, allSent := a, timerArmed := t, faultCode := f }

/-- The answers `ok`, `chunk`, `rx`, `expired`. -/
def ans (s : State) (ok : List Bool) (chunk : List Chunk) (rx : List (Option Datagram))
    (expired : List Bool) : State := { s with env := ⟨ok, chunk, rx, expired, 0⟩ }

/-- A chunk of a few bytes. -/
def ch (l : List Byte) (h : l.length ≤ 65535 := by decide) : Chunk := ⟨l, h⟩

/-- `A(a)`: a valid ACK. -/
def ack (a : U16) : Datagram := ⟨0#16, a, Config.Ck 0#16 a 0#16 [], 0#16, [], rfl⟩

/-- `A*(a)`: a corrupted ACK. -/
def badAck (a : U16) : Datagram := ⟨0#16, a, Config.Ck 0#16 a 0#16 [] ^^^ 1, 0#16, [], rfl⟩

/-- Mode, base, next, STATUS and the timer output of a command's next state. -/
def view (o : Host.Outcome State Fault Refusal) : Option (Mode × U16 × U16 × U16 × List TimerCmd) :=
  match o with
  | .next t => some (t.mode, t.base, t.nextSeqNum, t.statusWord, t.tmr)
  | _ => none

/-- Kind, sequence number and payload of each TX event. -/
def viewTx (o : Host.Outcome State Fault Refusal) : Option (List (TxKind × U16 × List Byte)) :=
  match o with
  | .next t => some (t.tx.map fun e => (e.1, e.2.seqNum, e.2.payload))
  | _ => none

/-- The read-data output. -/
def viewRd (o : Host.Outcome State Fault Refusal) : Option U16 :=
  match o with
  | .next t => t.rdData
  | _ => none

theorem ack_valid (a : U16) : ackValid (ack a) = true := by simp [ackValid, ack]

theorem badAck_invalid (a : U16) : ackValid (badAck a) = false := by
  refine decide_eq_false fun h => ?_
  have h0 : (Config.Ck 0#16 a 0#16 []).getLsbD 0 = (Config.Ck 0#16 a 0#16 [] ^^^ 1#Config.cksumWidth).getLsbD 0 :=
    congrArg (fun v : Checksum => v.getLsbD 0) h
  have h1 : (1#Config.cksumWidth).getLsbD 0 = true := by simp [Config.cksumWidth]
  rw [BitVec.getLsbD_xor, h1] at h0
  simp at h0

/-! WellFormed -/

theorem test_wf_refuses_rdreg_6 : (Instr.rdreg 6#4).wf = false := by decide
theorem test_wf_refuses_rdreg_15 : (Instr.rdreg 15#4).wf = false := by decide
theorem test_wf_admits_rdreg_5 : (Instr.rdreg 5#4).wf = true := by decide

/-! Decode: words written out from the encoding table of 30_encoding.md rule R50 -/

theorem test_decode_nop : decode 0b00000000#8 = .ok .nop := by decide
theorem test_decode_open : decode 0b00000001#8 = .ok .openSession := by decide
theorem test_decode_tick : decode 0b00000010#8 = .ok .tick := by decide
theorem test_decode_send : decode 0b00000011#8 = .ok .send := by decide
theorem test_decode_recv : decode 0b00000100#8 = .ok .recv := by decide
theorem test_decode_tmo : decode 0b00000101#8 = .ok .tmo := by decide
theorem test_decode_term : decode 0b00000110#8 = .ok .term := by decide
theorem test_decode_rdreg_next : decode 0b00100111#8 = .ok (.rdreg 2) := by decide

/-- L2-1: 0x67, 0x08, 0x80 and 0x12 are illegal, each for its reason. -/
theorem test_decode_illegal :
    decode 0x67#8 = .error (.reservedRegister 6) ∧ decode 0x08#8 = .error (.reservedOpcode 8) ∧
    decode 0x80#8 = .error (.nonzeroArg 0 8) ∧ decode 0x12#8 = .error (.nonzeroArg 2 1) := by decide

/-- The rows of opcode_table.json do not overlap. -/
theorem test_rows_disjoint : opcodeTable.Pairwise fun r q =>
    ∀ w : BitVec 8, ¬ (r.covers w = true ∧ q.covers w = true) := by decide

/-- The legality test of R92 is the decoder's. -/
theorem test_legal_iff_decodes : ∀ w : BitVec 8,
    legalWord w = (match decode w with | .ok _ => true | .error _ => false) := by decide

theorem test_table_word_fits : decodeTableWord 8 0x57 = some (.rdreg 5) := by decide

/-- R55: `RDREG NEXT ; rx=none` and `.cmd 0x67`. -/
theorem test_assemble :
    assembleLine ['R', 'D', 'R', 'E', 'G', ' ', 'N', 'E', 'X', 'T', ' ', ';', 'x'] = some (some 0x27#8) ∧
    assembleLine ['.', 'c', 'm', 'd', ' ', '0', 'x', '6', '7'] = some (some 0x67#8) := by decide

/-! Session control (L2-6) -/

/-- C6. -/
theorem test_nop_C6 : view (exec .nop (State.resetOf p34)) = some (.idle, 1, 1, 0x0000, []) := by decide

/-- C2. -/
theorem test_open_C2 : view (exec .openSession (ans (State.resetOf p34) [true] [] [] [])) =
    some (.active, 1, 1, 0x0001, []) := by decide

/-- C3. -/
theorem test_open_C3 : view (exec .openSession (ans (State.resetOf p34) [false] [] [] [])) =
    some (.faulted, 1, 1, 0x0106, []) := by decide

/-- C5. -/
theorem test_tick_C5 : view (exec .tick (State.resetOf p34)) = some (.faulted, 1, 1, 0x0306, []) := by decide

/-- C7: the terminal datagram. -/
theorem test_tick_C7 :
    view (exec .tick (st p34 .active 4 4 true false .none)) = some (.terminated, 4, 4, 0x000D, []) ∧
    viewTx (exec .tick (st p34 .active 4 4 true false .none)) = some [(.term, 4, [])] := by decide

/-- C9. -/
theorem test_term_C9 : view (exec .term (st p34 .active 3 4 true true .none)) =
    some (.faulted, 3, 4, 0x031E, []) := by decide

/-- C10. -/
theorem test_term_C10 : viewTx (exec .term (st p34 .active 4 4 true false .none)) =
    some [(.term, 4, [])] := by decide

/-- C15. -/
theorem test_rdreg_C15 :
    viewRd (exec (.rdreg 1) (st p104 .faulted 3 7 false true .ackRange)) = some 0x0003 ∧
    viewRd (exec (.rdreg 5) (st p104 .faulted 3 7 false true .ackRange)) = some 0x0004 := by decide

/-- L2-1, 0x67 outside FAULTED, and E1: 0x12 in IDLE. -/
theorem test_illegal_words :
    view (execute 0x67#8 (st p34 .active 1 1 false false .none)) = some (.faulted, 1, 1, 0x0206, []) ∧
    view (execute 0x12#8 (State.resetOf p34)) = some (.faulted, 1, 1, 0x0206, []) := ⟨by decide, by decide⟩

/-- C16: reset from FAULTED. -/
theorem test_reset_C16 :
    view (step { st p104 .faulted 3 7 false true .ackRange with host := [.reset] }) =
      some (.idle, 1, 1, 0x0000, []) := by decide

/-! Send (L2-3) -/

/-- S2 and the TX event of S3. -/
theorem test_send_S2_S3 :
    view (exec .send (ans (st p34 .active 1 1 false false .none) [] [ch [1, 2, 3, 4]] [] [])) =
      some (.active, 1, 2, 0x0011, [.start]) ∧
    viewTx (exec .send (ans (st p34 .active 1 2 false true .none) [] [ch [5]] [] [])) = some [(.new, 2, [5])] := by
  decide

/-- S4: a chunk of length M+1. S9: SEQ_OVERFLOW. -/
theorem test_send_S4_S9 :
    view (exec .send (ans (st p34 .active 1 1 false false .none) [] [ch [1, 2, 3, 4, 5]] [] [])) =
      some (.faulted, 1, 1, 0x0606, []) ∧
    view (exec .send (st p34 .active 0xFFFE 0xFFFF false true .none)) =
      some (.faulted, 0xFFFE, 0xFFFF, 0x0516, []) := ⟨by decide, by decide⟩

/-! Receive (L2-4) -/

/-- A4. -/
theorem test_recv_A4 : view (exec .recv (ans (st p104 .active 3 7 false true .none) [] [] [some (ack 3)] [])) =
    some (.active, 4, 7, 0x0011, [.start]) := by
  rw [exec_recv_of_active rfl, recvPhase_advance (r := ack 3) rfl (ack_valid 3) (by decide) (by decide)]
  decide

/-- A8: an invalid datagram is dropped before the range test. -/
theorem test_recv_A8 : view (exec .recv (ans (st p104 .active 3 7 false true .none) [] [] [some (badAck 9)] [])) =
    some (.active, 3, 7, 0x0011, []) := by
  rw [exec_recv_of_active rfl, recvPhase_drop (by intro r h; cases h; exact .inl (badAck_invalid 9))]
  decide

/-! Timeout (L2-5) -/

/-- The ring holding d1 to d4, in slots 1, 2, 0, 1 in turn: the last is d4. -/
def ring : Orb := [(0, frameData 3 (ch [0x49])), (1, frameData 4 (ch [0x4A])), (2, frameData 2 (ch [0x45]))]

/-- T4's order of slots: a full window starting at 2, slots 2, 0, 1. -/
theorem test_tmo_T4 :
    viewTx (exec .tmo (ans { st p34 .active 2 5 false true .none with orb := ring } [] [] [] [true])) =
      some [(.retx, 2, [0x45]), (.retx, 3, [0x49]), (.retx, 4, [0x4A])] ∧
    view (exec .tmo (ans { st p34 .active 2 5 false true .none with orb := ring } [] [] [] [true])) =
      some (.active, 2, 5, 0x0012, [.start]) := by decide

/-- T13: a disarmed timer is not asked, whatever it would answer. -/
theorem test_tmo_T13 : view (exec .tmo (ans (st p34 .active 1 1 false false .none) [] [] [] [true])) =
    some (.active, 1, 1, 0x0001, []) := by decide

/-! The states of the witnesses -/

/-- IDLE, `stream_ok` 1 and 0 to come. -/
def sIdle : State := ans (State.resetOf p34) [true, false] [] [] []

/-- ACTIVE, Filling, empty window, a short chunk to come, nothing received. -/
def sFresh : State := ans (st p34 .active 1 1 false false .none) [] [ch [1, 2]] [none, none] [true, true]

/-- ACTIVE, Draining: seq 1 outstanding and stored. -/
def sDrain : State :=
  { ans (st p34 .active 1 2 true true .none) [] [] [some (ack 1), none] [true, true] with
    orb := [(1, frameData 1 (ch [1, 2]))] }

/-- ACTIVE, Filling, seq 1 outstanding and stored, the timer armed. -/
def sArmed : State :=
  { ans (st p34 .active 1 2 false true .none) [] [ch [5, 6]] [none, none] [true, true] with
    orb := [(1, frameData 1 (ch [1, 2, 3, 4]))] }

/-- ACTIVE, Done. -/
def sDone : State := ans (st p34 .active 2 2 true false .none) [] [] [none] []

def sTerm : State := st p34 .terminated 2 2 true false .none

def sFault : State := st p34 .faulted 1 2 false true .ackRange

theorem sDrain_inv : sDrain.Inv where
  window := by unfold State.windowBound; decide
  timer := by unfold State.timerExact; decide
  copies := by
    intro k h1 h2
    have hk : k = 1 := by
      have e1 : sDrain.base.toNat = 1 := by decide
      have e2 : sDrain.nextSeqNum.toNat = 2 := by decide
      omega
    subst hk
    exact ⟨ch [1, 2], by decide, rfl⟩
  orb_wf := by decide
  slots_fit := by unfold State.slotsFit; decide
  mode_exact := ⟨by decide, by decide, by decide, by decide⟩

theorem sArmed_inv : sArmed.Inv where
  window := by unfold State.windowBound; decide
  timer := by unfold State.timerExact; decide
  copies := by
    intro k h1 h2
    have hk : k = 1 := by
      have e1 : sArmed.base.toNat = 1 := by decide
      have e2 : sArmed.nextSeqNum.toNat = 2 := by decide
      omega
    subst hk
    exact ⟨ch [1, 2, 3, 4], by decide, rfl⟩
  orb_wf := by decide
  slots_fit := by unfold State.slotsFit; decide
  mode_exact := ⟨by decide, by decide, by decide, by decide⟩

/-- After reset, OPEN and a SEND of `[1, 2]`, with an expiry to come: reached by a run that sent seq 1. -/
theorem run_witness : ∃ s : State, Run s [frameData 1 (ch [1, 2])] ∧ s.mode = .active ∧ s.timerArmed = true ∧
    s.base = 1 ∧ s.nextSeqNum = 2 ∧ s.env.askExpired.1 = true := by
  have h0 := Run.input [.cmd 0x01#8, .cmd 0x03#8] ⟨[true], [ch [1, 2]], [], [true], 0⟩ (Run.reset p34)
  have h1 := Run.command h0 (w := 0x01#8) rfl rfl
  have h2 := Run.command h1 (w := 0x03#8) rfl rfl
  exact ⟨_, h2, rfl, rfl, rfl, rfl, rfl⟩

theorem reach_of_run {s : State} {sent : List Datagram} (h : Run s sent) : Reachable s := by
  induction h with
  | reset p => exact .reset p
  | input h e _ ih => exact .input h e ih
  | command _ _ h ih => exact .step ih h
  | resetAgain _ _ h ih => exact .step ih h

/-! Witnesses: the hypotheses of each obligation are met together -/

theorem test_witness_IllegalWordRaisesIllegalCmd :
    (∃ e, decode 0x08#8 = .error e ∧ sIdle.mode ≠ .faulted) ∧
    ∃ e, decode 0x67#8 = .error e ∧ sFault.mode = .faulted := ⟨⟨_, rfl, by decide⟩, _, rfl, rfl⟩

theorem test_witness_RdregIndexNamesRegister : (5#4).toNat ≤ 5 ∧ 6 ≤ (6#4).toNat := by decide

theorem test_witness_DecodeEncodeRoundTrip :
    (Instr.rdreg 5#4).wf = true ∧ decode 0x57#8 = .ok (.rdreg 5) := by decide

theorem test_witness_AssemblerEmitsEncodedCommand : Instr.tmo.wf = true := rfl

theorem test_witness_StepRunsDecodedCommand :
    (∃ s : State, s.host = [.cmd 0x03#8] ∧ decode 0x03#8 = .ok .send) ∧
    (∃ s : State, s.host = [.reset]) ∧ (∃ s : State, s.host = []) ∧ decodeTableWord 8 0x03 = some .send :=
  ⟨⟨{ sFresh with host := [.cmd 0x03#8] }, rfl, rfl⟩, ⟨{ sFresh with host := [.reset] }, rfl⟩, ⟨sFresh, rfl⟩,
    by decide⟩

theorem test_witness_BuildRefusesBadParameters :
    ((1 ≤ 1 ∧ 1 ≤ 65534) ∧ (1 ≤ 1 ∧ 1 ≤ 65535)) ∧ ((1 ≤ 65534 ∧ 65534 ≤ 65534) ∧ (1 ≤ 65535 ∧ 65535 ≤ 65535)) ∧
    ¬ ((1 ≤ 0 ∧ 0 ≤ 65534) ∧ (1 ≤ 1 ∧ 1 ≤ 65535)) ∧ ¬ ((1 ≤ 65535 ∧ 65535 ≤ 65534) ∧ (1 ≤ 1 ∧ 1 ≤ 65535)) ∧
    ¬ ((1 ≤ 1 ∧ 1 ≤ 65534) ∧ (1 ≤ 65536 ∧ 65536 ≤ 65535)) := by decide

theorem test_witness_ParametersNeverChange : ∃ s t : State, s.host = [.cmd 0x03#8] ∧ step s = .next t :=
  ⟨{ sFresh with host := [.cmd 0x03#8] }, _, rfl, rfl⟩

theorem test_witness_OpenCreatesSessionOrFaults :
    (∃ e, sIdle.mode = .idle ∧ sIdle.env.askStreamOk = (true, e)) ∧
    (∃ (s : State) (e : Env), s.mode = .idle ∧ s.env.askStreamOk = (false, e) ∧ s.modeExact) ∧
    sFresh.mode = .active ∧ sTerm.mode = .terminated ∧ sFault.mode = .faulted :=
  ⟨⟨_, rfl, rfl⟩, ⟨ans (State.resetOf p34) [false] [] [] [], _, rfl, rfl,
    ⟨by decide, by decide, by decide, by decide⟩⟩, rfl, rfl, rfl⟩

theorem test_witness_IdleAdmitsOnlyOpenAndRdreg :
    ∃ e, sIdle.mode = .idle ∧ sIdle.env.askStreamOk = (true, e) ∧ regOfIndex 5 = some .outst := ⟨_, rfl, rfl, rfl⟩

theorem test_witness_TerminatedAdmitsOnlyTickNopRdreg : sTerm.mode = .terminated ∧ regOfIndex 0 = some .status :=
  ⟨rfl, rfl⟩

theorem test_witness_FaultedIgnoresAllButRdreg :
    ∃ e, sFault.mode = .faulted ∧ (∀ n, Instr.tick ≠ .rdreg n) ∧ regOfIndex 1 = some .base ∧
      decode 0x67#8 = .error e := ⟨_, rfl, nofun, rfl, rfl⟩

theorem test_witness_TermEndsOnlyADoneSession :
    (sDone.mode = .active ∧ sDone.allSent = true ∧ sDone.base = sDone.nextSeqNum) ∧
    (sDrain.mode ≠ .faulted ∧
      ¬ (sDrain.mode = .active ∧ sDrain.allSent = true ∧ sDrain.base = sDrain.nextSeqNum)) ∧
    sFault.mode = .faulted := by decide

theorem test_witness_TickInDoneSendsTerminalDatagram :
    sDone.mode = .active ∧ sDone.allSent = true ∧ sDone.base = sDone.nextSeqNum := by decide

theorem test_witness_RdregReadsRegister :
    6 ≤ (6#4).toNat ∧ sTerm.mode ≠ .faulted ∧ sFault.mode = .faulted ∧ sDrain.windowBound :=
  ⟨by decide, by decide, rfl, sDrain_inv.window⟩

theorem test_witness_PhaseEncodesState :
    sIdle.mode = .idle ∧ sTerm.mode = .terminated ∧ sFault.mode = .faulted ∧ sDrain.mode = .active ∧
    sDrain.windowBound := ⟨rfl, rfl, rfl, rfl, sDrain_inv.window⟩

/-- A full window. -/
theorem test_witness_PointerRegistersReadPointers : (st p34 .active 2 5 false true .none).windowBound ∧
    (st p34 .active 2 5 false true .none).readReg .outst = 3 := by
  unfold State.windowBound; decide

theorem test_witness_RdDataOnlyFromRdreg : ∃ t, execute 0x57#8 sFault = .next t ∧ t.rdData ≠ none :=
  ⟨_, rfl, by decide⟩

/-- The longest chunk the packetizer port carries, and what its record says of its length (R56, R60). -/
theorem test_longest_chunk : (frameData 1 ⟨List.replicate 65535 (0#8), List.length_replicate.le⟩).payloadLength =
    0xFFFF :=
  congrArg (BitVec.ofNat 16) List.length_replicate

theorem test_witness_AckValidComparesWholeChecksum : ackValid (ack 5) = true := ack_valid 5

theorem test_witness_RingReadAfterWrite : 0 ≠ 4 % sDrain.params.W ∧ sDrain.orb.wf sDrain.params.W = true := by decide

theorem test_witness_OutstandingSlotsDistinctAndWritten :
    (st p34 .active 2 5 false true .none).windowBound ∧
    ∃ s : State, Reachable s ∧ s.base.toNat ≤ 1 ∧ 1 < s.nextSeqNum.toNat := by
  refine ⟨by unfold State.windowBound; decide, ?_⟩
  obtain ⟨s, h, _, _, h3, h4, _⟩ := run_witness
  exact ⟨s, reach_of_run h, by rw [h3]; decide, by rw [h4]; decide⟩

/-- Chunks of length 0 and M; and WindowFull for the other clause. -/
theorem test_witness_SendTransmitsOneDatagram :
    (∃ (s : State) (e : Env), s.mode = .active ∧ s.nextSeqNum.toNat < s.base.toNat + s.params.W ∧ s.allSent = false ∧
      s.nextSeqNum ≠ 0xFFFF#16 ∧ s.env.askChunk = (ch [], e) ∧ (ch []).bytes.length ≤ s.params.M) ∧
    (∃ (s : State) (e : Env), s.mode = .active ∧ s.nextSeqNum.toNat < s.base.toNat + s.params.W ∧ s.allSent = false ∧
      s.nextSeqNum ≠ 0xFFFF#16 ∧ s.env.askChunk = (ch [1, 2, 3, 4], e) ∧ (ch [1, 2, 3, 4]).bytes.length ≤ s.params.M) ∧
    ∃ s : State, s.mode = .active ∧ ¬ (s.nextSeqNum.toNat < s.base.toNat + s.params.W ∧ s.allSent = false) :=
  ⟨⟨ans (st p34 .active 1 1 false false .none) [] [ch []] [] [], _, rfl, by decide, rfl, by decide, rfl, by decide⟩,
    ⟨ans (st p34 .active 1 3 false true .none) [] [ch [1, 2, 3, 4]] [] [], _,
      rfl, by decide, rfl, by decide, rfl, by decide⟩,
    ⟨st p34 .active 1 4 false true .none, rfl, by decide⟩⟩

theorem test_witness_SequenceNumbersNeverWrap :
    (∃ s : State, s.mode = .active ∧ s.nextSeqNum.toNat < s.base.toNat + s.params.W ∧ s.allSent = false ∧
      s.nextSeqNum = 0xFFFF#16) ∧
    (∃ t d, exec .send sFresh = .next t ∧ .tx .new d ∈ t.events) ∧
    ∃ t, exec .send sDrain = .next t ∧ ∀ d, .tx .new d ∉ t.events := by
  refine ⟨⟨st p34 .active 0xFFFE 0xFFFF false true .none, rfl, by decide, rfl, rfl⟩, ⟨_, _, rfl, .head _⟩, _, rfl, ?_⟩
  intro d h
  cases h

theorem test_witness_SendLongChunkFaults : ∃ (s : State) (e : Env), s.mode = .active ∧
    s.nextSeqNum.toNat < s.base.toNat + s.params.W ∧ s.allSent = false ∧ s.nextSeqNum ≠ 0xFFFF#16 ∧
    s.env.askChunk = (ch [1, 2, 3, 4, 5], e) ∧ s.params.M < (ch [1, 2, 3, 4, 5]).bytes.length :=
  ⟨ans (st p34 .active 1 1 false false .none) [] [ch [1, 2, 3, 4, 5]] [] [], _,
    rfl, by decide, rfl, by decide, rfl, by decide⟩

theorem test_witness_ShortChunkSetsAllSentForGood :
    (∃ t d, exec .send sFresh = .next t ∧ .tx .new d ∈ t.events ∧ sFresh.allSent = false ∧ t.allSent = true) ∧
    ∃ t, sDrain.mode = .active ∧ sDrain.allSent = true ∧ exec .send sDrain = .next t :=
  ⟨⟨_, _, rfl, .head _, rfl, rfl⟩, _, rfl, rfl, rfl⟩

/-- The hypothesis needs a state no run reaches: one whose code is RING_OVERWRITE already. -/
theorem test_witness_RingOverwriteNeverRaised :
    ∃ s t : State, step s = .next t ∧ t.faultCode = .ringOverwrite :=
  ⟨st p34 .faulted 1 1 false false .ringOverwrite, _, rfl, rfl⟩

/-- `a = base = next - 1`, the tightest window. -/
theorem test_witness_RecvAdvancesBase : ∃ e, sDrain.mode = .active ∧ sDrain.env.askRx = (some (ack 1), e) ∧
    ackValid (ack 1) = true ∧ sDrain.base.toNat ≤ (ack 1).ackNum.toNat ∧
    (ack 1).ackNum.toNat < sDrain.nextSeqNum.toNat := ⟨_, rfl, rfl, ack_valid 1, by decide, by decide⟩

theorem test_witness_RecvDiscardsInvalidAndStale :
    (∃ e, sFresh.mode = .active ∧ sFresh.env.askRx = (none, e)) ∧ ackValid (badAck 9) = false ∧
    (ack 0).ackNum.toNat < sFresh.base.toNat := ⟨⟨_, rfl, rfl⟩, badAck_invalid 9, by decide⟩

/-- `a = next`, the least number never sent. -/
theorem test_witness_RecvAckBeyondWindowFaults : ∃ (s : State) (e : Env), s.mode = .active ∧
    s.env.askRx = (some (ack 2), e) ∧
    ackValid (ack 2) = true ∧ s.base.toNat ≤ (ack 2).ackNum.toNat ∧ s.nextSeqNum.toNat ≤ (ack 2).ackNum.toNat :=
  ⟨ans sDrain [] [] [some (ack 2)] [], _, rfl, rfl, ack_valid 2, by decide, by decide⟩

/-- F8's datagram and A(4): the fields that differ are not read. -/
theorem test_witness_OnlyAckNumOfAnAckMatters :
    ackValid ⟨42, 4, Config.Ck 42 4 1 [0], 1, [0], rfl⟩ = true ∧ ackValid (ack 4) = true :=
  ⟨by simp [ackValid], ack_valid 4⟩

theorem test_witness_NewestAckAloneGivesSameWindow : ∃ s t u v : State, s.mode = .active ∧
    ackValid (ack 3) = true ∧ ackValid (ack 6) = true ∧ (ack 3).ackNum.toNat ≤ (ack 6).ackNum.toNat ∧
    (ack 6).ackNum.toNat < s.nextSeqNum.toNat ∧
    exec .recv (s.withRx [some (ack 3), some (ack 6)]) = .next t ∧ exec .recv t = .next u ∧
    exec .recv (s.withRx [some (ack 6)]) = .next v :=
  ⟨st p104 .active 3 7 false true .none, _, _, _, rfl, ack_valid 3, ack_valid 6, by decide, by decide, rfl, rfl, rfl⟩

theorem test_witness_ExpiryGateAsksOnlyArmedTimer : sFresh.timerArmed = false ∧
    (∃ s : State, s.timerArmed = true ∧ s.startedThisCmd = true) ∧
    ∃ e, sDrain.timerArmed = true ∧ sDrain.startedThisCmd = false ∧ sDrain.env.askExpired = (true, e) :=
  ⟨rfl, ⟨{ sDrain with startedThisCmd := true }, rfl, rfl⟩, _, rfl, rfl, rfl⟩

theorem test_witness_TmoResendsWindowOnExpiryOnly : sDrain.mode = .active ∧
    (∃ e, sDrain.timerArmed = true ∧ sDrain.env.askExpired = (true, e)) ∧
    (sFresh.mode = .active ∧ sFresh.timerArmed = false) ∧
    ∃ (s : State) (e : Env), s.mode = .active ∧ s.timerArmed = true ∧ s.env.askExpired = (false, e) :=
  ⟨rfl, ⟨_, rfl, rfl⟩, ⟨rfl, rfl⟩, ans sDrain [] [] [] [false], _, rfl, rfl, rfl⟩

theorem test_witness_RetransmissionsAreTheOriginals : ∃ (s t : State) (sent : List Datagram) (e : Env),
    Run s sent ∧ s.mode = .active ∧
    s.timerArmed = true ∧ s.env.askExpired = (true, e) ∧ exec .tmo s = .next t ∧ t.retxDatagrams ≠ [] := by
  have h0 := Run.input [.cmd 0x01#8, .cmd 0x03#8] ⟨[true], [ch [1, 2]], [], [true], 0⟩ (Run.reset p34)
  have h1 := Run.command h0 (w := 0x01#8) rfl rfl
  have h2 := Run.command h1 (w := 0x03#8) rfl rfl
  exact ⟨_, _, _, _, h2, rfl, rfl, rfl, rfl, nofun⟩

theorem test_witness_TimeoutIsIdempotent : ∃ t u : State, sDrain.mode = .active ∧
    sDrain.env.tmrExpired = [true, true] ∧ exec .tmo sDrain = .next t ∧ exec .tmo t = .next u :=
  ⟨_, _, rfl, rfl, rfl, rfl⟩

theorem test_witness_SpuriousExpiryIsHarmless : ∃ t d, exec .tmo sDrain = .next t ∧ .tx .retx d ∈ t.events ∧
    sDrain.timerExact := ⟨_, _, rfl, .head _, sDrain_inv.timer⟩

theorem test_witness_TickFirstSendMasksExpiry : ∃ e f, sFresh.mode = .active ∧
    sFresh.base = sFresh.nextSeqNum ∧ sFresh.allSent = false ∧ sFresh.nextSeqNum ≠ 0xFFFF#16 ∧
    sFresh.env.askChunk = (ch [1, 2], e) ∧ (ch [1, 2]).bytes.length ≤ sFresh.params.M ∧ e.askRx = (none, f) :=
  ⟨_, _, rfl, rfl, rfl, by decide, rfl, by decide, rfl⟩

theorem test_witness_TickResendsFreshDatagram : ∃ e f g, sArmed.mode = .active ∧ sArmed.timerArmed = true ∧
    sArmed.base.toNat < sArmed.nextSeqNum.toNat ∧
    sArmed.nextSeqNum.toNat < sArmed.base.toNat + sArmed.params.W ∧ sArmed.allSent = false ∧
    sArmed.nextSeqNum ≠ 0xFFFF#16 ∧ sArmed.env.askChunk = (ch [5, 6], e) ∧ (ch [5, 6]).bytes.length ≤ sArmed.params.M ∧
    e.askRx = (none, f) ∧ f.askExpired = (true, g) :=
  ⟨_, _, _, rfl, rfl, by decide, by decide, rfl, by decide, rfl, by decide, rfl, rfl⟩

theorem test_witness_TickAfterAckMasksExpiry : ∃ e, sDrain.mode = .active ∧
    ¬ (sDrain.nextSeqNum.toNat < sDrain.base.toNat + sDrain.params.W ∧ sDrain.allSent = false) ∧
    ¬ (sDrain.allSent = true ∧ sDrain.base = sDrain.nextSeqNum) ∧ sDrain.env.askRx = (some (ack 1), e) ∧
    ackValid (ack 1) = true ∧ sDrain.base.toNat ≤ (ack 1).ackNum.toNat ∧
    (ack 1).ackNum.toNat < sDrain.nextSeqNum.toNat :=
  ⟨_, rfl, by decide, by decide, rfl, ack_valid 1, by decide, by decide⟩

/-- `a = next` as the send phase of the same TICK left it. -/
theorem test_witness_TickKeepsSendOnAckRangeFault : ∃ (s t : State) (e : Env), s.mode = .active ∧ s.allSent = false ∧
    exec .send s = .next t ∧ t.mode = .active ∧ t.env.askRx = (some (ack 2), e) ∧ ackValid (ack 2) = true ∧
    t.base.toNat ≤ (ack 2).ackNum.toNat ∧ t.nextSeqNum.toNat ≤ (ack 2).ackNum.toNat :=
  ⟨sFresh.withRx [some (ack 2)], _, _, rfl, rfl, rfl, rfl, rfl, ack_valid 2, by decide, by decide⟩

theorem test_witness_TickAgreesWithPhaseCommands : ∃ t u v x : State, sFresh.mode = .active ∧
    ¬ (sFresh.allSent = true ∧ sFresh.base = sFresh.nextSeqNum) ∧ exec .send sFresh = .next t ∧
    exec .recv t = .next u ∧ exec .tmo u = .next v ∧ exec .tick sFresh = .next x :=
  ⟨_, _, _, _, rfl, by decide, rfl, rfl, rfl, rfl⟩

theorem test_witness_TickOutputOrder : ∃ x, sArmed.Inv ∧ sArmed.mode = .active ∧
    ¬ (sArmed.allSent = true ∧ sArmed.base = sArmed.nextSeqNum) ∧ exec .tick sArmed = .next x ∧
    x.retxDatagrams ≠ [] := ⟨_, sArmed_inv, rfl, by decide, rfl, nofun⟩

theorem test_witness_InvariantKeptByEveryStep : ∃ s t : State, s.Inv ∧ s.host = [.cmd 0x05#8] ∧ step s = .next t :=
  ⟨{ sDrain with host := [.cmd 0x05#8] }, _,
    ⟨sDrain_inv.window, sDrain_inv.timer, sDrain_inv.copies, sDrain_inv.orb_wf, sDrain_inv.slots_fit,
      ⟨sDrain_inv.mode_exact.faulted_iff, sDrain_inv.mode_exact.idle_fresh,
        sDrain_inv.mode_exact.terminated_done, sDrain_inv.mode_exact.base_pos⟩⟩, rfl, rfl⟩

theorem test_witness_ReachableWindowAndTimer : ∃ s : State, Reachable s ∧ s.base ≠ s.nextSeqNum := by
  obtain ⟨s, h, _, _, h3, h4, _⟩ := run_witness
  exact ⟨s, reach_of_run h, by rw [h3, h4]; decide⟩

theorem test_witness_StoredCopyIsWhatWasSent :
    (∃ t, sDrain.Remembers [frameData 1 (ch [1, 2])] ∧ execute 0x05#8 sDrain = .next t) ∧
    ∃ (s : State) (sent : List Datagram), Run s sent ∧ s.base.toNat ≤ 1 ∧ 1 < s.nextSeqNum.toNat := by
  refine ⟨⟨_, ⟨sDrain_inv, rfl, ?_, ?_⟩, rfl⟩, ?_⟩
  · intro j h
    have hj : j = 0 := by simpa using h
    subst hj
    rfl
  · intro k h1 h2
    have hk : k = 1 := by
      have e1 : sDrain.base.toNat = 1 := by decide
      have e2 : sDrain.nextSeqNum.toNat = 2 := by decide
      omega
    subst hk
    rfl
  · obtain ⟨s, h, _, _, h3, h4, _⟩ := run_witness
    exact ⟨s, _, h, by rw [h3]; decide, by rw [h4]; decide⟩

theorem test_witness_OnlyResetLeavesTheEndModes : (∃ t, execute 0x00#8 sIdle = .next t ∧ t.mode = .idle) ∧
    (∃ t, execute 0x01#8 sIdle = .next t ∧ t.mode = .active) ∧
    (∃ t, execute 0x02#8 sTerm = .next t ∧ sTerm.mode = .terminated) ∧
    ∃ t, execute 0x02#8 sFault = .next t ∧ sFault.mode = .faulted :=
  ⟨⟨_, rfl, rfl⟩, ⟨_, rfl, rfl⟩, ⟨_, rfl, rfl⟩, _, rfl, rfl⟩

theorem test_witness_FaultEntryChangesOnlyModeAndCode : ∃ t, Instr.term ≠ .tick ∧ sDrain.mode ≠ .faulted ∧
    exec .term sDrain = .next t ∧ t.mode = .faulted := ⟨_, by decide, by decide, rfl, rfl⟩

theorem test_witness_PointersNeverGoBack : ∃ t, sArmed.mode = .active ∧ sArmed.windowBound ∧
    exec .tick sArmed = .next t := ⟨_, rfl, sArmed_inv.window, rfl⟩

theorem test_witness_OnlySendPhaseWritesRing : ∃ t, exec .send sFresh = .next t ∧ t.orb ≠ sFresh.orb :=
  ⟨_, rfl, nofun⟩

theorem test_witness_TerminalDatagramSentAtMostOnce :
    (∃ t d, exec .tick sDone = .next t ∧ .tx .term d ∈ t.events) ∧
    ∃ t, sTerm.mode ≠ .active ∧ exec .tick sTerm = .next t := ⟨⟨_, _, rfl, .head _⟩, _, by decide, rfl⟩

theorem test_witness_PortsAskedOnlyWhereTheRulesSay : ∃ t, exec .tick sArmed = .next t ∧
    t.env.chunk = sArmed.env.chunk.tail ∧ t.env.rx = sArmed.env.rx.tail ∧
    t.env.tmrExpired = sArmed.env.tmrExpired.tail := ⟨_, rfl, rfl, rfl, rfl⟩

/-- A fair run: the first TICK sends a full chunk; the second sends the short last one and takes, in the same
TICK, the ACK of the number it just sent; the third finds Done. -/
def fair : Nat → State
  | 0 => ans (st p34 .active 1 1 false false .none) [] [ch [1, 2, 3, 4]] [none] []
  | 1 => { ans (st p34 .active 1 2 false true .none) [] [ch [5]] [some (ack 2)] [] with
      startedThisCmd := true
      events := [.tx .new (frameData 1 (ch [1, 2, 3, 4])), .tmr .start]
      orb := [(1, frameData 1 (ch [1, 2, 3, 4]))] }
  | 2 => { ans (st p34 .active 3 3 true false .none) [] [] [none] [] with
      events := [.tx .new (frameData 2 (ch [5])), .tmr .stop]
      orb := [(1, frameData 1 (ch [1, 2, 3, 4])), (2, frameData 2 (ch [5]))] }
  | _ + 3 => { ans (st p34 .terminated 3 3 true false .none) [] [] [none] [] with
      events := [.tx .term (frameTerm 3)]
      orb := [(1, frameData 1 (ch [1, 2, 3, 4])), (2, frameData 2 (ch [5]))] }

theorem fair_inv : (fair 0).Inv where
  window := by unfold State.windowBound; decide
  timer := by unfold State.timerExact; decide
  copies := by
    intro k h1 h2
    have e1 : (fair 0).base.toNat = 1 := by decide
    have e2 : (fair 0).nextSeqNum.toNat = 1 := by decide
    omega
  orb_wf := by decide
  slots_fit := by unfold State.slotsFit; decide
  mode_exact := ⟨by decide, by decide, by decide, by decide⟩

/-- The second TICK: its receive phase takes A(2) after its send phase sent seq 2. -/
theorem fair_tick_one : exec .tick (fair 1) = .next { fair 2 with env := ⟨[], [], [], [], 0⟩ } := by
  have hs : sendPhase (fair 1).beginCommand = .go { (fair 1).beginCommand with
      env := ⟨[], [], [some (ack 2)], [], 0⟩, nextSeqNum := 3, allSent := true
      events := [.tx .new (frameData 2 (ch [5]))]
      orb := [(1, frameData 1 (ch [1, 2, 3, 4])), (2, frameData 2 (ch [5]))] } := rfl
  rw [exec_tick_of_active rfl rfl, hs, Flow.go_andThen,
    recvPhase_advance (r := ack 2) rfl (ack_valid 2) (by decide) (by decide)]
  rfl

theorem test_witness_FairTicksReachTerminated : (fair 0).Inv ∧ (fair 0).mode = .active ∧
    (∀ n, (fair n).mode = .active → ∃ t h e, exec .tick (fair n) = .next t ∧
      fair (n + 1) = { t with host := h, env := e }) ∧
    (∀ n, (fair n).mode = .active → (fair n).base ≠ (fair n).nextSeqNum → ∃ m r rest, n ≤ m ∧
      (fair m).env.rx = some r :: rest ∧ ackValid r = true ∧
      (fair m).base.toNat ≤ r.ackNum.toNat ∧ r.ackNum.toNat < (fair m).polledNext) ∧
    (∀ n, (fair n).mode = .active → ∃ a rest, (fair n).env.rx = a :: rest ∧
      ∀ r, a = some r → ackValid r = true → r.ackNum.toNat < (fair n).polledNext) ∧
    (∀ n, (fair n).mode = .active → (fair n).filling = true → (fair n).nextSeqNum ≠ 0xFFFF#16 ∧
      ∃ c rest, (fair n).env.chunk = c :: rest ∧ c.bytes.length ≤ (fair n).params.M) := by
  refine ⟨fair_inv, rfl, ?_, ?_, ?_, ?_⟩
  · intro n h
    match n with
    | 0 => exact ⟨{ fair 1 with env := ⟨[], [], [], [], 0⟩ }, [], (fair 1).env, rfl, rfl⟩
    | 1 => exact ⟨_, [], (fair 2).env, fair_tick_one, rfl⟩
    | 2 => exact ⟨{ fair 3 with env := (fair 2).env }, [], (fair 3).env, rfl, rfl⟩
    | n + 3 => cases h
  · intro n h hne
    match n with
    | 0 => exact absurd rfl hne
    | 1 => exact ⟨1, ack 2, [], Nat.le_refl 1, rfl, ack_valid 2, by decide, by decide⟩
    | 2 => exact absurd rfl hne
    | n + 3 => cases h
  · intro n h
    match n with
    | 0 => exact ⟨none, [], rfl, nofun⟩
    | 1 => exact ⟨some (ack 2), [], rfl, fun r hr _ => by cases hr; decide⟩
    | 2 => exact ⟨none, [], rfl, nofun⟩
    | n + 3 => cases h
  · intro n h hf
    match n with
    | 0 => exact ⟨by decide, ch [1, 2, 3, 4], [], rfl, by decide⟩
    | 1 => exact ⟨by decide, ch [5], [], rfl, by decide⟩
    | 2 => cases hf
    | n + 3 => cases h

end Sys2Proof.Tests
end

section
/-! PROOFS. The state (10_state.md): what the derived words read, and the window bound and the timer invariant
in every reachable state. -/

namespace Sys2Proof.Machine

/-! The words derived from the state: PHASE (R21), STATUS (R26), OUTST (R28) -/

theorem State.phase_of_unfinished {s : State} (hm : s.mode = .active) (ha : s.allSent = false) :
    s.phase = if s.nextSeqNum.toNat < s.base.toNat + s.params.W then 1
      else if s.nextSeqNum.toNat = s.base.toNat + s.params.W then 2 else 7 := by
  simp [State.phase, hm, State.filling, State.windowFull, State.draining, State.done, ha]

theorem State.phase_of_allSent {s : State} (hm : s.mode = .active) (ha : s.allSent = true) :
    s.phase = if s.base = s.nextSeqNum then 4 else 3 := by
  by_cases h : s.base = s.nextSeqNum <;>
    simp [State.phase, hm, State.filling, State.windowFull, State.draining, State.done, ha, h]

theorem State.resetOf_statusWord (p : Params) : (State.resetOf p).statusWord = 0x0000#16 := by
  simp [State.statusWord, State.resetOf, State.phase, FaultCode.bits]

/-- Bit by bit, STATUS is the field that R26 puts there. -/
theorem State.statusWord_getLsbD (s : State) (i : Nat) :
    s.statusWord.getLsbD i =
      if i < 3 then s.phase.getLsbD i
      else if i = 3 then s.allSent
      else if i = 4 then s.timerArmed
      else decide (8 ≤ i) && s.faultCode.bits.getLsbD (i - 8) := by
  simp only [State.statusWord, BitVec.getLsbD_append, BitVec.getLsbD_ofBool, BitVec.getLsbD_zero]
  have hcode : 12 ≤ i → s.faultCode.bits.getLsbD (i - 8) = false := fun h => BitVec.getLsbD_of_ge _ _ (by omega)
  grind

/-- The upper bits of STATUS are the fault code's or zero. -/
theorem State.statusWord_getLsbD_of_five_le (s : State) {i : Nat} (h : 5 ≤ i) :
    s.statusWord.getLsbD i = (decide (8 ≤ i) && s.faultCode.bits.getLsbD (i - 8)) := by
  rw [State.statusWord_getLsbD, if_neg (by omega), if_neg (by omega), if_neg (by omega)]

/-- The number outstanding fits the register in every state (R28). -/
theorem State.readReg_outst_toNat (s : State) : (s.readReg .outst).toNat = s.outstanding := by
  have h : s.outstanding < 2 ^ 16 := Nat.lt_of_le_of_lt (Nat.sub_le _ _) s.nextSeqNum.isLt
  exact BitVec.toNat_ofNat .. |>.trans (Nat.mod_eq_of_lt h)

theorem exec_rdreg_of_reg {n : BitVec 4} {r : ReadReg} (h : regOfIndex n = some r) (s : State) :
    exec (.rdreg n) s = .next { s with startedThisCmd := false, events := [], rdData := some (s.readReg r) } := by
  have hread := s.beginCommand_readReg r
  simp only [exec, execRdreg, h, hread]
  rfl

/-! A property kept by every operation is kept by every step, hence holds in every reachable state -/

/-- Everything a step is made of keeps `P`: what the host delivers and the collaborators answer, a reset, the
start of a command, a fault entry, the read of a register, and each phase where a command runs it. -/
structure KeptByOperations (P : State → Prop) : Prop where
  input : ∀ s h e, P s → P { s with host := h, env := e }
  reset : ∀ s, P s → P s.applyReset
  beginCommand : ∀ s, P s → P s.beginCommand
  fault : ∀ s c, P s → P (s.enterFault c)
  read : ∀ s v, P s → P { s with rdData := v }
  openPhase : ∀ s, s.mode = .idle → P s → P (openPhase s).state
  sendPhase : ∀ s, s.mode = .active → P s → P (sendPhase s).state
  recvPhase : ∀ s, s.mode = .active → P s → P (recvPhase s).state
  timeoutPhase : ∀ s, s.mode = .active → P s → P (timeoutPhase s).state
  termPhase : ∀ s, s.mode = .active → s.done = true → P s → P (termPhase s).state

theorem KeptByOperations.commandFlow {P : State → Prop} (hP : KeptByOperations P) (i : Instr) {s : State}
    (hs : P s) : P (commandFlow i s).state :=
  commandFlow_keeps P i s (hP.beginCommand s hs) hP.fault hP.read hP.openPhase hP.sendPhase hP.recvPhase
    hP.timeoutPhase hP.termPhase

theorem KeptByOperations.illegalCommand {P : State → Prop} (hP : KeptByOperations P) {s : State} (hs : P s) :
    P s.illegalCommand.state := by
  have hb := hP.beginCommand s hs
  rcases s.illegalCommand_cases with ⟨_, he⟩ | ⟨_, he⟩ <;> rw [he]
  · exact hb
  · exact hP.fault _ _ hb

theorem KeptByOperations.step {P : State → Prop} (hP : KeptByOperations P) {s t : State} (hs : P s)
    (ht : step s = .next t) : P t := by
  have hin : ∀ rest, P { s with host := rest } := fun rest => hP.input s rest s.env hs
  rcases step_cases ht with ⟨_, rfl⟩ | ⟨rest, _, rfl⟩ | ⟨_, rest, i, _, _, rfl⟩ | ⟨_, rest, _, _, _, rfl⟩
  · exact hs
  · exact hP.reset _ (hin rest)
  · exact hP.commandFlow i (hin rest)
  · exact hP.illegalCommand (hin rest)

theorem KeptByOperations.of_reachable {P : State → Prop} (hP : KeptByOperations P)
    (h0 : ∀ p, P (State.resetOf p)) {s : State} (hs : Reachable s) : P s := by
  induction hs with
  | reset p => exact h0 p
  | input h e _ ih => exact hP.input _ h e ih
  | step _ ht ih => exact hP.step ih ht

/-! The window bound (R22) and the timer invariant (R23), phase by phase -/

theorem State.windowBound_of_base_eq {s : State} (h : s.base = s.nextSeqNum) : s.windowBound := by
  simp [State.windowBound, h]

theorem sendPhase_windowBound {s : State} (h : s.windowBound) : (sendPhase s).state.windowBound := by
  obtain ⟨hle, hW⟩ := h
  rcases sendPhase_cases s with ⟨_, he⟩ | ⟨_, _, he⟩ | ⟨_, _, _, he⟩ | ⟨hf, hn, _, he⟩ <;> rw [he]
  case inr.inr.inr =>
    have hroom := (s.filling_iff.mp hf).1
    simp only [Flow.state_go, State.windowBound, transmitChunk_eq, State.askChunk_snd_base,
      State.askChunk_snd_nextSeqNum, State.askChunk_snd_params, toNat_succ_of_ne hn]
    omega
  all_goals exact ⟨hle, hW⟩

/-- After a send the window is not empty and the timer runs: it was armed, or this send armed it (R74). -/
theorem sendPhase_timerExact {s : State} (hw : s.windowBound) (h : s.timerExact) :
    (sendPhase s).state.timerExact := by
  rcases sendPhase_cases s with ⟨_, he⟩ | ⟨_, _, he⟩ | ⟨_, _, _, he⟩ | ⟨_, hn, _, he⟩ <;> rw [he]
  case inr.inr.inr =>
    have hne : s.base ≠ toU16 (s.nextSeqNum.toNat + 1) := by
      intro heq
      have := heq ▸ hw.1
      rw [toNat_succ_of_ne hn] at this
      omega
    have harmed : (if s.base = s.nextSeqNum then true else s.timerArmed) = true := by
      split
      · rfl
      · next hopen => exact h.mpr hopen
    simp only [Flow.state_go, transmitChunk_eq, State.timerExact, State.askChunk_snd_base,
      State.askChunk_snd_nextSeqNum, State.askChunk_snd_timerArmed]
    exact iff_of_true harmed hne
  all_goals exact h

theorem recvPhase_windowBound {s : State} (h : s.windowBound) : (recvPhase s).state.windowBound := by
  obtain ⟨hle, hW⟩ := h
  rcases recvPhase_cases s with ⟨_, he⟩ | ⟨_, _, _, he⟩ | ⟨_, _, _, _, _, he⟩ | ⟨r, _, _, hb, hn, he⟩ <;> rw [he]
  case inr.inr.inr =>
    simp only [Flow.state_go, State.windowBound, retimeAfterAck_eq, State.askRx_snd_nextSeqNum,
      State.askRx_snd_params, toNat_ackNum_succ hn]
    omega
  all_goals exact ⟨hle, hW⟩

theorem retimeAfterAck_timerExact (s : State) : (retimeAfterAck s).timerExact := by
  simp [State.timerExact, retimeAfterAck_eq]

theorem recvPhase_timerExact {s : State} (h : s.timerExact) : (recvPhase s).state.timerExact := by
  rcases recvPhase_cases s with ⟨_, he⟩ | ⟨_, _, _, he⟩ | ⟨_, _, _, _, _, he⟩ | ⟨_, _, _, _, _, he⟩ <;> rw [he]
  case inr.inr.inr => exact retimeAfterAck_timerExact _
  all_goals exact h

theorem timeoutPhase_windowBound {s : State} (h : s.windowBound) : (timeoutPhase s).state.windowBound := by
  obtain ⟨hp, _, hb, hn, _⟩ := timeoutPhase_frame s
  simpa [State.windowBound, hp, hb, hn] using h

theorem timeoutPhase_timerExact {s : State} (h : s.timerExact) : (timeoutPhase s).state.timerExact := by
  obtain ⟨_, _, hb, hn, _, ht, _⟩ := timeoutPhase_frame s
  simpa [State.timerExact, hb, hn, ht] using h

/-- OPEN leaves an empty window and no timer, or touches neither (R94). -/
theorem openPhase_window_timer {s : State} (h : s.windowBound ∧ s.timerExact) :
    (openPhase s).state.windowBound ∧ (openPhase s).state.timerExact := by
  rcases openPhase_cases s with ⟨_, he⟩ | ⟨_, he⟩ <;> rw [he]
  · exact ⟨State.windowBound_of_base_eq rfl, by simp [State.timerExact]⟩
  · exact h

theorem window_timer_kept : KeptByOperations fun s => s.windowBound ∧ s.timerExact where
  input _ _ _ h := h
  reset _ _ := ⟨State.windowBound_of_base_eq rfl, by simp [State.timerExact]⟩
  beginCommand _ h := h
  fault _ _ h := h
  read _ _ h := h
  openPhase _ _ h := openPhase_window_timer h
  sendPhase _ _ h := ⟨sendPhase_windowBound h.1, sendPhase_timerExact h.1 h.2⟩
  recvPhase _ _ h := ⟨recvPhase_windowBound h.1, recvPhase_timerExact h.2⟩
  timeoutPhase _ _ h := ⟨timeoutPhase_windowBound h.1, timeoutPhase_timerExact h.2⟩
  termPhase _ _ _ h := h

/-- Settles O52: both invariants hold at reset and every operation keeps them together; the timer's needs the
window bound where a send moves nextSeqNum past base. -/
theorem reachableWindowAndTimer : Obligations.ReachableWindowAndTimer := by
  intro s hs
  obtain ⟨⟨hle, hW⟩, ht⟩ := window_timer_kept.of_reachable
    (fun _ => ⟨State.windowBound_of_base_eq rfl, by simp [State.timerExact, State.resetOf]⟩) hs
  exact ⟨hle, hW, ht⟩

/-! What reset leaves, and what the state shows -/

/-- Settles O8: each clause reads a field of the reset state. -/
theorem resetLeavesStatedValues : Obligations.ResetLeavesStatedValues :=
  fun p => ⟨rfl, rfl, rfl, rfl, rfl, rfl, rfl, Orb.read?_nil, State.resetOf_statusWord p, rfl⟩

/-- Settles O20: bit by bit. -/
theorem statusWordLayout : Obligations.StatusWordLayout := by
  intro s
  refine ⟨?_, ?_, ?_, ?_, ?_, ?_, State.resetOf_statusWord _⟩
  · ext i hi
    simp [State.statusWord_getLsbD, hi]
  · exact s.statusWord_getLsbD 3
  · exact s.statusWord_getLsbD 4
  · ext i hi
    have h8 : ¬ 8 ≤ 5 + i := by omega
    simp [State.statusWord_getLsbD_of_five_le, h8]
  · ext i hi
    simp [State.statusWord_getLsbD_of_five_le, show 5 ≤ 8 + i by omega, hi]
  · ext i hi
    have hzero : s.faultCode.bits.getLsbD (12 + i - 8) = false := BitVec.getLsbD_of_ge _ _ (by omega)
    simp [State.statusWord_getLsbD_of_five_le, show 5 ≤ 12 + i by omega, hzero]

/-- Settles O21: in ACTIVE allSent parts Filling, WindowFull and 7 from Draining and Done. -/
theorem phaseEncodesState : Obligations.PhaseEncodesState := by
  intro s
  refine ⟨fun hm => by simp [State.phase, hm], fun hm => by simp [State.phase, hm],
    fun hm => by simp [State.phase, hm], fun hm => ?_⟩
  cases ha : s.allSent with
  | false =>
    rw [State.phase_of_unfinished hm ha]
    by_cases hlt : s.nextSeqNum.toNat < s.base.toNat + s.params.W
    · simp [hlt, hlt.ne]
    · by_cases heq : s.nextSeqNum.toNat = s.base.toNat + s.params.W
      · simp [heq]
      · have hout : ¬ s.windowBound := fun ⟨_, hW⟩ => by omega
        simp [hlt, heq, hout]
  | true =>
    rw [State.phase_of_allSent hm ha]
    by_cases h : s.base = s.nextSeqNum <;> simp [h]

/-- Settles O22: RDREG answers the register's content, and the difference of the pointers loses nothing. -/
theorem pointerRegistersReadPointers : Obligations.PointerRegistersReadPointers := by
  intro s
  refine ⟨exec_rdreg_of_reg (r := .base) rfl s, exec_rdreg_of_reg (r := .next) rfl s, s.readReg .outst,
    exec_rdreg_of_reg rfl s, fun ⟨hle, hW⟩ => ?_⟩
  rw [State.readReg_outst_toNat, State.outstanding]
  omega

/-- Settles O23: one value of exit_status for each mode. -/
theorem exitStatusOnlyAtTheEnd : Obligations.ExitStatusOnlyAtTheEnd := by
  intro s
  cases hm : s.mode <;> simp [State.exitStatus, hm]

end Sys2Proof.Machine
end

section
/-! PROOFS. The ring (20_memory.md): in every reachable state the slot of each outstanding number holds a
datagram framed for that number. -/

namespace Sys2Proof.Machine

/-! The numbers of the registers -/

@[simp] theorem toU16_toNat (n : U16) : toU16 n.toNat = n := BitVec.ofNat_toNat ..

theorem toNat_toU16_of_lt {k : Nat} {n : U16} (h : k < n.toNat) : (toU16 k).toNat = k :=
  BitVec.toNat_ofNat .. |>.trans (Nat.mod_eq_of_lt (h.trans n.isLt))

/-! The stored copies (R46), phase by phase -/

/-- With nothing outstanding there is no copy to hold. -/
theorem State.storedCopies_of_base_eq {s : State} (h : s.base = s.nextSeqNum) : s.storedCopies := by
  intro k hlo hhi
  rw [h] at hlo
  omega

/-- Numbers that leave the window at its base take no copy away. -/
theorem State.storedCopies.of_base_le {s t : State} (h : s.storedCopies) (hp : t.params = s.params)
    (ho : t.orb = s.orb) (hn : t.nextSeqNum = s.nextSeqNum) (hb : s.base.toNat ≤ t.base.toNat) :
    t.storedCopies := by
  intro k hlo hhi
  rw [hp, ho]
  exact h k (hb.trans hlo) (hn ▸ hhi)

/-- A sent chunk is stored under its own number, in a slot that no number outstanding before it has. -/
theorem transmitChunk_storedCopies {c : Chunk} {s : State} (h : s.storedCopies)
    (hroom : s.nextSeqNum.toNat < s.base.toNat + s.params.W) (hn : s.nextSeqNum ≠ 0xFFFF#16)
    (hc : c.bytes.length ≤ s.params.M) : (transmitChunk c s).storedCopies := by
  intro k hlo hhi
  simp only [transmitChunk_eq, toNat_succ_of_ne hn] at hlo hhi ⊢
  rcases Nat.lt_succ_iff_lt_or_eq.mp hhi with hlt | rfl
  · have hslot := slotOf_ne s.params hlt (by omega)
    rw [Orb.read?_write_other _ _ hslot]
    exact h k hlo hlt
  · exact ⟨c, hc, by rw [Orb.read?_write_same, toU16_toNat]⟩

theorem sendPhase_storedCopies {s : State} (h : s.storedCopies) : (sendPhase s).state.storedCopies := by
  rcases sendPhase_cases s with ⟨_, he⟩ | ⟨_, _, he⟩ | ⟨_, _, _, he⟩ | ⟨hf, hn, hc, he⟩ <;> rw [he]
  case inr.inr.inr => exact transmitChunk_storedCopies (s := s.askChunk.2) h (s.filling_iff.mp hf).1 hn hc
  all_goals exact h

/-- The receive phase never moves the base back (R78, R79). -/
theorem recvPhase_base_le (s : State) : s.base.toNat ≤ (recvPhase s).state.base.toNat := by
  rcases recvPhase_cases s with ⟨_, he⟩ | ⟨_, _, _, he⟩ | ⟨_, _, _, _, _, he⟩ | ⟨r, _, _, hb, hn, he⟩ <;> rw [he]
  case inr.inr.inr =>
    simp only [Flow.state_go, retimeAfterAck_eq, toNat_ackNum_succ hn]
    omega
  all_goals exact Nat.le_refl _

theorem recvPhase_storedCopies {s : State} (h : s.storedCopies) : (recvPhase s).state.storedCopies := by
  obtain ⟨hp, hn, _, ho, _⟩ := recvPhase_frame s
  exact h.of_base_le hp ho hn (recvPhase_base_le s)

theorem timeoutPhase_storedCopies {s : State} (h : s.storedCopies) : (timeoutPhase s).state.storedCopies := by
  obtain ⟨hp, _, hb, hn, _, _, _, ho, _⟩ := timeoutPhase_frame s
  exact h.of_base_le hp ho hn (by rw [hb])

theorem openPhase_storedCopies {s : State} (h : s.storedCopies) : (openPhase s).state.storedCopies := by
  rcases openPhase_cases s with ⟨_, he⟩ | ⟨_, he⟩ <;> rw [he]
  · exact State.storedCopies_of_base_eq rfl
  · exact h

theorem storedCopies_kept : KeptByOperations State.storedCopies where
  input _ _ _ h := h
  reset _ _ := State.storedCopies_of_base_eq rfl
  beginCommand _ h := h
  fault _ _ h := h
  read _ _ h := h
  openPhase _ _ h := openPhase_storedCopies h
  sendPhase _ _ h := sendPhase_storedCopies h
  recvPhase _ _ h := recvPhase_storedCopies h
  timeoutPhase _ _ h := timeoutPhase_storedCopies h
  termPhase _ _ _ h := h

theorem storedCopies_of_reachable {s : State} (hs : Reachable s) : s.storedCopies :=
  storedCopies_kept.of_reachable (fun _ => State.storedCopies_of_base_eq rfl) hs

/-- Settles O28: two numbers less than W apart have different slots, and the stored copy of an outstanding
number carries that number. -/
theorem outstandingSlotsDistinctAndWritten : Obligations.OutstandingSlotsDistinctAndWritten := by
  refine ⟨fun s ⟨_, hW⟩ j k hj hjk hk => slotOf_ne s.params hjk (by omega), fun s hs k hlo hhi => ?_⟩
  obtain ⟨c, _, hread⟩ := storedCopies_of_reachable hs k hlo hhi
  exact ⟨frameData (toU16 k) c, hread, toNat_toU16_of_lt hhi⟩

end Sys2Proof.Machine
end

section
/-! PROOFS. Encodings (30_encoding.md): the decoder by its two fields, what an illegal word does, and which
commands give read data. -/

namespace Sys2Proof

/-! The decoder, one rule for each range of OP (R48 to R52) -/

theorem decode_of_op_le_six {w : Byte} (h : (opField w).toNat ≤ 6) : ∃ i, decode w = decodePlain w i := by
  unfold decode
  interval_cases (opField w).toNat <;> exact ⟨_, rfl⟩

theorem decode_of_op_eq_seven {w : Byte} (h : (opField w).toNat = 7) :
    decode w = if (argField w).toNat ≤ 5 then .ok (.rdreg (argField w))
      else .error (.reservedRegister (argField w)) := by
  simp only [decode, h]

theorem decode_of_eight_le_op {w : Byte} (h : 8 ≤ (opField w).toNat) :
    decode w = .error (.reservedOpcode (opField w)) := by
  unfold decode
  split
  case h_9 => rfl
  all_goals omega

theorem decodePlain_ok_iff {w : Byte} {i : Instr} : (∃ j, decodePlain w i = .ok j) ↔ argField w = 0#4 := by
  by_cases h : argField w = 0#4 <;> simp [decodePlain, h]

/-- R51: the two kinds of legal words. -/
theorem decode_ok_iff (w : Byte) : (∃ i, decode w = .ok i) ↔
    ((opField w).toNat ≤ 6 ∧ argField w = 0#4) ∨ ((opField w).toNat = 7 ∧ (argField w).toNat ≤ 5) := by
  rcases Nat.lt_trichotomy (opField w).toNat 7 with h | h | h
  · obtain ⟨i, hi⟩ := decode_of_op_le_six (Nat.le_of_lt_succ h)
    rw [hi, decodePlain_ok_iff]
    simp [Nat.le_of_lt_succ h, h.ne]
  · rw [decode_of_op_eq_seven h]
    by_cases harg : (argField w).toNat ≤ 5 <;> simp [h, harg]
  · rw [decode_of_eight_le_op h]
    simp [Nat.not_le.mpr (Nat.lt_of_succ_lt h), h.ne']

end Sys2Proof

namespace Sys2Proof.Machine

/-- Settles O1: the thirteen words by evaluation, the reserved opcodes by the decoder's last rule. -/
theorem opcodeMapDecodes : Obligations.OpcodeMapDecodes :=
  ⟨rfl, rfl, rfl, rfl, rfl, rfl, rfl, rfl, rfl, rfl, rfl, rfl, rfl, fun _ => decode_of_eight_le_op⟩

/-! Illegal words (R51) -/

theorem execute_illegal {w : Byte} {e : DecodeError} (h : decode w = .error e) {s : State}
    (hm : s.mode ≠ .faulted) : execute w s = .next (s.beginCommand.enterFault .illegalCmd) := by
  rcases s.illegalCommand_cases with ⟨hf, _⟩ | ⟨_, he⟩
  · exact absurd hf hm
  · rw [execute_of_error h, he, State.raiseFault_state]

theorem execute_illegal_of_faulted {w : Byte} {e : DecodeError} (h : decode w = .error e) {s : State}
    (hm : s.mode = .faulted) : execute w s = .next s.beginCommand := by
  rcases s.illegalCommand_cases with ⟨_, he⟩ | ⟨hn, _⟩
  · rw [execute_of_error h, he, Flow.state_go]
  · exact absurd hm hn

/-- Settles O2: legality by the two fields, the four counts by running the decoder on the 256 words, and the
effect by the mode. -/
theorem illegalWordRaisesIllegalCmd : Obligations.IllegalWordRaisesIllegalCmd := by
  refine ⟨decode_ok_iff, ?_, ?_, ?_, ?_, fun s w e h => ⟨execute_illegal h, execute_illegal_of_faulted h⟩⟩
  all_goals decide +kernel

/-! The read data (R62): only the read of a register writes it -/

@[simp] theorem sendPhase_rdData (s : State) : (sendPhase s).state.rdData = s.rdData := by
  obtain ⟨_, _, h, _⟩ := sendPhase_frame s
  exact h

@[simp] theorem recvPhase_rdData (s : State) : (recvPhase s).state.rdData = s.rdData := by
  obtain ⟨_, _, _, _, h, _⟩ := recvPhase_frame s
  exact h

@[simp] theorem timeoutPhase_rdData (s : State) : (timeoutPhase s).state.rdData = s.rdData := by
  obtain ⟨_, _, _, _, _, _, _, _, h, _⟩ := timeoutPhase_frame s
  exact h

@[simp] theorem openPhase_rdData (s : State) : (openPhase s).state.rdData = s.rdData := by
  rcases openPhase_cases s with ⟨_, h⟩ | ⟨_, h⟩ <;> rw [h] <;> rfl

@[simp] theorem termPhase_rdData (s : State) : (termPhase s).state.rdData = s.rdData := rfl

theorem Flow.andThen_rdData {g : State → Flow} (hg : ∀ u, (g u).state.rdData = u.rdData) (f : Flow) :
    (f.andThen g).state.rdData = f.state.rdData := by
  cases f with
  | go u => exact hg u
  | stop u => rfl

/-- Every command but the read of a register leaves the read data empty, as its start made it. -/
theorem exec_rdData_eq_none {i : Instr} {s t : State} (ht : exec i s = .next t)
    (hi : ∀ n r, i = .rdreg n → regOfIndex n ≠ some r) : t.rdData = none := by
  rcases exec_cases ht with rfl | ⟨_, _, _, _, rfl⟩ | ⟨n, r, hn, hr, _⟩ | ⟨_, _, rfl⟩ | ⟨_, _, _, rfl⟩ |
    ⟨_, _, rfl⟩ | ⟨_, _, rfl⟩ | ⟨_, _, rfl⟩ | ⟨rfl, hm, hd⟩
  case inr.inr.inl => exact absurd hr (hi n r hn)
  case inr.inr.inr.inr.inr.inr.inr.inr =>
    rw [exec_tick_of_active hm hd] at ht
    injection ht with ht
    rw [← ht, Flow.andThen_rdData timeoutPhase_rdData, Flow.andThen_rdData recvPhase_rdData, sendPhase_rdData,
      State.beginCommand_rdData]
  all_goals simp

theorem illegalCommand_rdData (s : State) : s.illegalCommand.state.rdData = none := by
  rcases s.illegalCommand_cases with ⟨_, h⟩ | ⟨_, h⟩ <;> rw [h] <;> rfl

/-- Settles O24: the read of a register writes its content; an illegal word and every other command leave the
read data empty. -/
theorem rdDataOnlyFromRdreg : Obligations.RdDataOnlyFromRdreg := by
  refine ⟨fun s t w ht => ⟨fun hval => ?_, fun ⟨n, r, hw, hr⟩ => ?_⟩, fun t u hu => ?_⟩
  · cases hw : decode w with
    | error e =>
      rw [execute_of_error hw] at ht
      injection ht with ht
      exact absurd (ht ▸ illegalCommand_rdData s) hval
    | ok i =>
      rw [execute_of_ok hw] at ht
      by_contra hnone
      exact hval (exec_rdData_eq_none ht fun n r hi hr => hnone ⟨n, r, by rw [hi], hr⟩)
  · rw [execute_of_ok hw, exec_rdreg_of_reg hr] at ht
    injection ht with ht
    simp [← ht]
  · rw [exec_rdreg_of_reg (r := .status) rfl] at hu
    injection hu with hu
    exact congrArg State.rdData hu.symm

end Sys2Proof.Machine
end

section
/-! PROOFS. The framer (40_framer.md): what it builds and accepts, and that a command reads of a valid received
datagram its ackNum only. -/

namespace Sys2Proof.Machine

/-! The datagrams the framer builds (R63 to R65) and accepts (R66) -/

/-- Settles O25: field by field; a chunk's length fits the 16 bits of payloadLength. -/
theorem framerBuildsDatagram : Obligations.FramerBuildsDatagram :=
  ⟨fun seq c => ⟨rfl, frameData_payloadLength_toNat seq c⟩, fun _ => ⟨rfl, rfl⟩⟩

@[simp] theorem frameData_seqNum (seq : U16) (c : Chunk) : (frameData seq c).seqNum = seq := rfl

theorem ackValid_eq_false_iff (r : Datagram) :
    ackValid r = false ↔ Config.Ck r.seqNum r.ackNum r.payloadLength r.payload ≠ r.checksum := by
  simp [ackValid]

/-- Every checksum has a bit 0, as CKSUM_W is at least 1 (R5). -/
theorem checksum_ne_flip (c : Checksum) : c ≠ c ^^^ 1 := by
  intro h
  have hbit : c.getLsbD 0 = (c ^^^ 1#Config.cksumWidth).getLsbD 0 := congrArg (·.getLsbD 0) h
  have hone : (1#Config.cksumWidth).getLsbD 0 = true := by simp [Config.cksumWidth]
  simp [BitVec.getLsbD_xor, hone] at hbit

/-- Settles O26: a flipped bit leaves the four fields' checksum and changes the carried one. -/
theorem ackValidComparesWholeChecksum : Obligations.AckValidComparesWholeChecksum := by
  refine ⟨ackValid_iff, fun a => (ackValid_iff _).mpr rfl, fun r hr => (ackValid_eq_false_iff _).mpr ?_⟩
  have hck := (ackValid_iff r).mp hr
  exact hck.trans_ne (checksum_ne_flip r.checksum)

/-! The RX answers still to come, under the operations that ask for none (R42) -/

/-- A phase's end with the RX answers still to come set. -/
def Flow.withRx (l : List (Option Datagram)) : Flow → Flow
  | .go s => .go (s.withRx l)
  | .stop s => .stop (s.withRx l)

@[simp] theorem Flow.withRx_state (l : List (Option Datagram)) (f : Flow) :
    (f.withRx l).state = f.state.withRx l := by
  cases f <;> rfl

@[simp] theorem Flow.withRx_go (l : List (Option Datagram)) (s : State) : (Flow.go s).withRx l = .go (s.withRx l) := rfl

@[simp] theorem State.raiseFault_withRx (l : List (Option Datagram)) (s : State) (c : FaultCode) :
    (s.raiseFault c).withRx l = (s.withRx l).raiseFault c := rfl

@[simp] theorem State.withRx_beginCommand (s : State) (l : List (Option Datagram)) :
    (s.withRx l).beginCommand = s.beginCommand.withRx l := rfl

@[simp] theorem State.withRx_mode (s : State) (l : List (Option Datagram)) : (s.withRx l).mode = s.mode := rfl

@[simp] theorem State.withRx_params (s : State) (l : List (Option Datagram)) : (s.withRx l).params = s.params := rfl

@[simp] theorem State.withRx_timerArmed (s : State) (l : List (Option Datagram)) :
    (s.withRx l).timerArmed = s.timerArmed := rfl

@[simp] theorem State.withRx_startedThisCmd (s : State) (l : List (Option Datagram)) :
    (s.withRx l).startedThisCmd = s.startedThisCmd := rfl

@[simp] theorem State.withRx_done (s : State) (l : List (Option Datagram)) : (s.withRx l).done = s.done := rfl

theorem State.askStreamOk_withRx (s : State) (l : List (Option Datagram)) :
    (s.withRx l).askStreamOk = (s.askStreamOk.1, s.askStreamOk.2.withRx l) := by
  cases h : s.env.streamOk <;> simp [State.withRx, State.askStreamOk, Env.askStreamOk, Env.drawn, h]

theorem State.askChunk_withRx (s : State) (l : List (Option Datagram)) :
    (s.withRx l).askChunk = (s.askChunk.1, s.askChunk.2.withRx l) := by
  cases h : s.env.chunk <;> simp [State.withRx, State.askChunk, Env.askChunk, Env.drawn, h]

theorem State.askExpired_withRx (s : State) (l : List (Option Datagram)) :
    (s.withRx l).askExpired = (s.askExpired.1, s.askExpired.2.withRx l) := by
  cases h : s.env.tmrExpired <;> simp [State.withRx, State.askExpired, Env.askExpired, Env.drawn, h]

theorem openPhase_withRx (s : State) (l : List (Option Datagram)) :
    openPhase (s.withRx l) = (openPhase s).withRx l := by
  simp only [openPhase, State.askStreamOk_withRx]
  split <;> rfl

theorem checkChunk_withRx (c : Chunk) (s : State) (l : List (Option Datagram)) :
    checkChunk c (s.withRx l) = (checkChunk c s).withRx l := by
  have hsent : transmitChunk c (s.withRx l) = (transmitChunk c s).withRx l := by
    simp only [transmitChunk_eq]
    rfl
  by_cases hl : s.params.M < c.bytes.length <;> simp [checkChunk, hl, hsent]

theorem sendPhase_withRx (s : State) (l : List (Option Datagram)) :
    sendPhase (s.withRx l) = (sendPhase s).withRx l := by
  cases hf : s.filling with
  | false => rw [sendPhase_of_not_filling hf, sendPhase_of_not_filling (s := s.withRx l) hf, Flow.withRx_go]
  | true =>
    by_cases hn : s.nextSeqNum = 0xFFFF#16
    · rw [sendPhase_at_limit hf hn, sendPhase_at_limit (s := s.withRx l) hf hn, State.raiseFault_withRx]
    · rw [sendPhase_checks hf hn, sendPhase_checks (s := s.withRx l) hf hn, ← State.askChunk_fst,
        State.askChunk_withRx, checkChunk_withRx, State.askChunk_fst]

theorem timeoutPhase_withRx (s : State) (l : List (Option Datagram)) :
    timeoutPhase (s.withRx l) = (timeoutPhase s).withRx l := by
  have hgate : (s.withRx l).expiredEff = (s.expiredEff.1, s.expiredEff.2.withRx l) := by
    rcases s.expiredEff_cases with ⟨h | h, he⟩ | ⟨ha, hs, he⟩ <;> rw [he]
    · simp [State.expiredEff, h]
    · simp [State.expiredEff, h]
    · simp [State.expiredEff, ha, hs, State.askExpired_withRx]
  simp only [timeoutPhase, hgate]
  split <;> rfl

theorem termPhase_withRx (s : State) (l : List (Option Datagram)) :
    termPhase (s.withRx l) = (termPhase s).withRx l := rfl

theorem State.whenActive_withRx {phase : State → Flow} {l : List (Option Datagram)}
    (h : ∀ s, phase (s.withRx l) = (phase s).withRx l) (s : State) :
    (s.withRx l).whenActive phase = (s.whenActive phase).withRx l := by
  cases hm : s.mode <;> simp [State.whenActive, hm, h]

/-- The command may reach the receive phase: RECV, and TICK outside Done, in ACTIVE (R82, R95). -/
def mayPoll (i : Instr) (s : State) : Prop := s.mode = .active ∧ (i = .recv ∨ i = .tick ∧ s.done = false)

/-- A command that does not poll leaves the RX answers, whatever they are, and does the same with all. -/
theorem commandFlow_withRx {i : Instr} {s : State} (h : ¬ mayPoll i s) (l : List (Option Datagram)) :
    commandFlow i (s.withRx l) = (commandFlow i s).withRx l := by
  cases i with
  | nop => rfl
  | openSession => cases hm : s.mode <;> simp [commandFlow, hm, openPhase_withRx]
  | tick =>
    cases hm : s.mode
    case active =>
      have hd : s.done = true := by simpa [mayPoll, hm] using h
      simp [commandFlow, hm, tickPhases, hd, termPhase_withRx]
    all_goals simp [commandFlow, hm]
  | send => exact State.whenActive_withRx (sendPhase_withRx · l) s.beginCommand
  | recv =>
    have hm : s.mode ≠ .active := by simpa [mayPoll] using h
    cases hm' : s.mode <;> simp_all [commandFlow, State.whenActive]
  | tmo => exact State.whenActive_withRx (timeoutPhase_withRx · l) s.beginCommand
  | term =>
    cases hm : s.mode
    case active =>
      cases hd : s.done <;> simp [commandFlow, hm, hd, termPhase_withRx]
    all_goals simp [commandFlow, hm]
  | rdreg n =>
    simp only [commandFlow]
    cases regOfIndex n with
    | some r => cases r <;> rfl
    | none => cases hm : s.mode <;> simp [State.illegalCommand, hm]

theorem exec_withRx {i : Instr} {s : State} (h : ¬ mayPoll i s) (l : List (Option Datagram)) :
    exec i (s.withRx l) = .next ((commandFlow i s).state.withRx l) := by
  rw [exec_eq_commandFlow, commandFlow_withRx h, Flow.withRx_state]

/-! The receive phase on one of two ACKs (R67) -/

/-- The receive phase of a valid datagram depends on its ackNum only. -/
theorem recvPhase_withRx_congr {r q : Datagram} (hr : ackValid r = true) (hq : ackValid q = true)
    (ha : r.ackNum = q.ackNum) (s : State) (rest : List (Option Datagram)) :
    recvPhase (s.withRx (some r :: rest)) = recvPhase (s.withRx (some q :: rest)) := by
  show processAck r (s.withRx rest) = processAck q (s.withRx rest)
  rw [processAck, processAck, ackNumOf, ackNumOf, hr, hq, ha]

/-- Settles O37: a command that polls consumes the ACK in its receive phase, unless a fault of TICK's send phase
comes first; no other phase sees it. -/
theorem onlyAckNumOfAnAckMatters : Obligations.OnlyAckNumOfAnAckMatters := by
  refine ⟨fun _ => rfl, fun s r q rest i hr hq ha => ?_⟩
  have hrecv := recvPhase_withRx_congr hr hq ha (rest := rest)
  by_cases hp : mayPoll i s
  · obtain ⟨hm, rfl | ⟨rfl, hd⟩⟩ := hp
    · left
      rw [exec_recv_of_active (s := s.withRx (some r :: rest)) hm,
        exec_recv_of_active (s := s.withRx (some q :: rest)) hm]
      simp only [State.withRx_beginCommand, hrecv]
    · rw [exec_tick_of_active (s := s.withRx (some r :: rest)) hm hd,
        exec_tick_of_active (s := s.withRx (some q :: rest)) hm hd]
      simp only [State.withRx_beginCommand, sendPhase_withRx]
      cases sendPhase s.beginCommand with
      | go u =>
        left
        simp only [Flow.withRx_go, Flow.go_andThen, hrecv]
      | stop u => exact .inr ⟨u, rfl, rfl⟩
  · exact .inr ⟨_, exec_withRx hp _, exec_withRx hp _⟩

end Sys2Proof.Machine
end

section
/-! PROOFS. Retransmissions are the originals (40_framer.md rule R69, 43_timeout_retransmit.md rule R86): what a
run has sent is numbered from 1 and held by the ring while outstanding, and a command that resends anything
resends the ring's copies of the window. -/

namespace Sys2Proof.Machine

/-! The outputs of a command by kind -/

/-- The stored copies of the outstanding numbers, in increasing order (R85). -/
def State.windowCopies (s : State) : List Datagram :=
  (List.range s.outstanding).map fun j => s.ringRead (slotOf s.params (s.base.toNat + j))

theorem State.newDatagrams_of_events_nil {s : State} (h : s.events = []) : s.newDatagrams = [] := by
  simp [State.newDatagrams, State.tx, h]

theorem State.retxDatagrams_of_events_nil {s : State} (h : s.events = []) : s.retxDatagrams = [] := by
  simp [State.retxDatagrams, State.tx, h]

theorem State.newDatagrams_of_tx {s t : State} (h : t.tx = s.tx) : t.newDatagrams = s.newDatagrams := by
  rw [State.newDatagrams, h, State.newDatagrams]

theorem State.retxDatagrams_of_tx {s t : State} (h : t.tx = s.tx) : t.retxDatagrams = s.retxDatagrams := by
  rw [State.retxDatagrams, h, State.retxDatagrams]

theorem transmitChunk_tx (c : Chunk) (s : State) :
    (transmitChunk c s).tx = s.tx ++ [(.new, frameData s.nextSeqNum c)] := by
  by_cases h : s.base = s.nextSeqNum <;> simp [State.tx, transmitChunk_eq, h]

theorem retransmitWindow_tx (s : State) :
    (retransmitWindow s).tx = s.tx ++ s.windowCopies.map (TxKind.retx, ·) := by
  simp [State.tx, retransmitWindow_eq, retransmissions, State.windowCopies, List.filterMap_map, Function.comp_def]

theorem termPhase_tx (s : State) : (termPhase s).state.tx = s.tx ++ [(.term, frameTerm s.nextSeqNum)] := by
  simp [State.tx, termPhase_eq]

theorem recvPhase_tx (s : State) : (recvPhase s).state.tx = s.tx := by
  obtain ⟨_, _, _, _, _, _, _, h⟩ := recvPhase_frame s
  exact h

theorem openPhase_tx (s : State) : (openPhase s).state.tx = s.tx := by
  rcases openPhase_cases s with ⟨_, h⟩ | ⟨_, h⟩ <;> rw [h] <;> rfl

@[simp] theorem transmitChunk_newDatagrams (c : Chunk) (s : State) :
    (transmitChunk c s).newDatagrams = s.newDatagrams ++ [frameData s.nextSeqNum c] := by
  simp [State.newDatagrams, transmitChunk_tx]

/-- The send phase resends nothing. -/
@[simp] theorem sendPhase_retxDatagrams (s : State) : (sendPhase s).state.retxDatagrams = s.retxDatagrams := by
  rcases sendPhase_cases s with ⟨_, h⟩ | ⟨_, _, h⟩ | ⟨_, _, _, h⟩ | ⟨_, _, _, h⟩ <;> rw [h]
  case inr.inr.inr =>
    have htx : s.askChunk.2.tx = s.tx := rfl
    simp [State.retxDatagrams, transmitChunk_tx, htx]
  all_goals rfl

@[simp] theorem termPhase_newDatagrams (s : State) : (termPhase s).state.newDatagrams = s.newDatagrams := by
  simp [State.newDatagrams, termPhase_tx]

@[simp] theorem termPhase_retxDatagrams (s : State) : (termPhase s).state.retxDatagrams = s.retxDatagrams := by
  simp [State.retxDatagrams, termPhase_tx]

@[simp] theorem retransmitWindow_newDatagrams (s : State) : (retransmitWindow s).newDatagrams = s.newDatagrams := by
  simp [State.newDatagrams, retransmitWindow_tx, List.filterMap_map]

@[simp] theorem retransmitWindow_retxDatagrams (s : State) :
    (retransmitWindow s).retxDatagrams = s.retxDatagrams ++ s.windowCopies := by
  simp [State.retxDatagrams, retransmitWindow_tx, List.filterMap_map]

@[simp] theorem timeoutPhase_newDatagrams (s : State) : (timeoutPhase s).state.newDatagrams = s.newDatagrams := by
  rcases timeoutPhase_cases s with ⟨_, h⟩ | ⟨_, _, _, h⟩ | ⟨_, _, _, h⟩ <;> rw [h]
  · rfl
  · rfl
  · exact retransmitWindow_newDatagrams _

/-- A timeout phase resends nothing or the copies of the window, which it leaves as it was (R85, R91). -/
theorem timeoutPhase_retxDatagrams {s : State} (h : s.retxDatagrams = []) :
    (timeoutPhase s).state.retxDatagrams = [] ∨
      (timeoutPhase s).state.retxDatagrams = (timeoutPhase s).state.windowCopies := by
  rcases timeoutPhase_cases s with ⟨_, he⟩ | ⟨_, _, _, he⟩ | ⟨_, _, _, he⟩ <;> rw [he]
  · exact .inl h
  · exact .inl h
  · right
    have hr : s.askExpired.2.retxDatagrams = [] := h
    rw [Flow.state_go, retransmitWindow_retxDatagrams, hr]
    rfl

/-- Only the timeout phase resends, and it is the last phase of its command. -/
theorem exec_retxDatagrams {i : Instr} {s t : State} (ht : exec i s = .next t) :
    t.retxDatagrams = [] ∨ t.retxDatagrams = t.windowCopies := by
  have hb : s.beginCommand.retxDatagrams = [] := State.retxDatagrams_of_events_nil rfl
  have hrecv (u : State) : (recvPhase u).state.retxDatagrams = u.retxDatagrams :=
    State.retxDatagrams_of_tx (recvPhase_tx u)
  rcases exec_cases ht with rfl | ⟨c, _, _, _, rfl⟩ | ⟨_, _, _, _, rfl⟩ | ⟨_, _, rfl⟩ | ⟨_, _, _, rfl⟩ |
    ⟨_, _, rfl⟩ | ⟨_, _, rfl⟩ | ⟨_, _, rfl⟩ | ⟨rfl, hm, hd⟩
  · exact .inl hb
  · exact .inl hb
  · exact .inl hb
  · exact .inl ((State.retxDatagrams_of_tx (openPhase_tx _)).trans hb)
  · exact .inl ((termPhase_retxDatagrams _).trans hb)
  · exact .inl ((sendPhase_retxDatagrams _).trans hb)
  · exact .inl ((hrecv _).trans hb)
  · exact timeoutPhase_retxDatagrams hb
  · have hsend := (sendPhase_retxDatagrams s.beginCommand).trans hb
    rcases exec_tick_cases hm hd ht with hs | ⟨u, hs, hr⟩ | ⟨u, v, hs, hr, rfl⟩
    · exact .inl (by simpa [hs] using hsend)
    · have hu := hrecv u
      simp only [hs, hr, Flow.state_go, Flow.state_stop] at hsend hu
      exact .inl (hu.trans hsend)
    · have hu := hrecv u
      simp only [hs, hr, Flow.state_go] at hsend hu
      exact timeoutPhase_retxDatagrams (hu.trans hsend)

/-! What the ring remembers of the datagrams sent (R31), phase by phase -/

/-- What a run keeps of the datagrams emitted as NEW: `State.Remembers` without the block's invariant, of which two
clauses suffice here. -/
structure State.HoldsSent (s : State) (sent : List Datagram) : Prop where
  base_pos : 1 ≤ s.base.toNat
  idle_fresh : s.mode = .idle → s.nextSeqNum = 1#16
  count : sent.length + 1 = s.nextSeqNum.toNat
  numbered : ∀ j (h : j < sent.length), sent[j].seqNum.toNat = j + 1
  stored : ∀ k, s.base.toNat ≤ k → k < s.nextSeqNum.toNat → sent[k - 1]? = some (s.ringRead (slotOf s.params k))

/-- Right after a reset or an OPEN nothing is sent and nothing outstanding. -/
theorem State.holdsSent_fresh {s : State} (hb : s.base = 1#16) (hn : s.nextSeqNum = 1#16) : s.HoldsSent [] where
  base_pos := by simp [hb]
  idle_fresh _ := hn
  count := by simp [hn]
  numbered _ h := absurd h (Nat.not_lt_zero _)
  stored k hlo hhi := by
    rw [hb] at hlo
    rw [hn] at hhi
    omega

/-- Only the ring, the pointers and the mode matter, and numbers may leave the window at its base. -/
theorem State.HoldsSent.of_base_le {s t : State} {sent : List Datagram} (h : s.HoldsSent sent)
    (hm : t.mode = .idle → s.mode = .idle) (hp : t.params = s.params := by rfl) (ho : t.orb = s.orb := by rfl)
    (he : t.orbEpoch = s.orbEpoch := by rfl) (hn : t.nextSeqNum = s.nextSeqNum := by rfl)
    (hb : s.base.toNat ≤ t.base.toNat := by exact Nat.le_refl _) : t.HoldsSent sent where
  base_pos := h.base_pos.trans hb
  idle_fresh hi := hn.trans (h.idle_fresh (hm hi))
  count := hn ▸ h.count
  numbered := h.numbered
  stored k hlo hhi := by
    have hread : t.ringRead (slotOf t.params k) = s.ringRead (slotOf s.params k) := by
      simp only [State.ringRead, hp, ho, he]
    rw [hread]
    exact h.stored k (hb.trans hlo) (hn ▸ hhi)

/-- A sent chunk gets the next number and the slot of no number outstanding before it. -/
theorem transmitChunk_holdsSent {c : Chunk} {s : State} {sent : List Datagram} (h : s.HoldsSent sent)
    (hm : s.mode ≠ .idle) (hroom : s.nextSeqNum.toNat < s.base.toNat + s.params.W)
    (hn : s.nextSeqNum ≠ 0xFFFF#16) :
    (transmitChunk c s).HoldsSent (sent ++ [frameData s.nextSeqNum c]) := by
  have hcount := h.count
  have hnext : (transmitChunk c s).nextSeqNum.toNat = s.nextSeqNum.toNat + 1 := by
    simp only [transmitChunk_eq, toNat_succ_of_ne hn]
  have hring (k : Nat) : (transmitChunk c s).ringRead (slotOf s.params k) =
      if slotOf s.params k = slotOf s.params s.nextSeqNum.toNat then frameData s.nextSeqNum c
      else s.ringRead (slotOf s.params k) := by
    rw [← State.ringRead_ringWrite, transmitChunk_eq]
    rfl
  have hbase : (transmitChunk c s).base = s.base := by simp only [transmitChunk_eq]
  have hparams : (transmitChunk c s).params = s.params := by simp only [transmitChunk_eq]
  have hmode : (transmitChunk c s).mode = s.mode := by simp only [transmitChunk_eq]
  refine ⟨hbase ▸ h.base_pos, fun hi => absurd (hmode ▸ hi) hm, ?_, fun j hj => ?_, fun k hlo hhi => ?_⟩
  · simp [hnext, hcount]
  · rcases Nat.lt_or_ge j sent.length with hlt | hge
    · rw [List.getElem_append_left hlt]
      exact h.numbered j hlt
    · have hj' : j = sent.length := by simp at hj; omega
      subst hj'
      simpa using hcount.symm
  · rw [hparams, hring]
    rw [hbase] at hlo
    rw [hnext] at hhi
    have hpos := h.base_pos
    rcases Nat.lt_succ_iff_lt_or_eq.mp hhi with hlt | rfl
    · have hslot := slotOf_ne s.params hlt (by omega)
      rw [if_neg hslot, List.getElem?_append_left (by omega)]
      exact h.stored k hlo hlt
    · rw [if_pos rfl, ← hcount]
      simp

theorem sendPhase_holdsSent {s : State} {sent : List Datagram} (hm : s.mode = .active)
    (h : s.HoldsSent (sent ++ s.newDatagrams)) :
    (sendPhase s).state.HoldsSent (sent ++ (sendPhase s).state.newDatagrams) := by
  have hfault (c : FaultCode) (e : Env) : (({ s with env := e } : State).enterFault c).HoldsSent
      (sent ++ s.newDatagrams) := h.of_base_le nofun
  rcases sendPhase_cases s with ⟨_, he⟩ | ⟨_, _, he⟩ | ⟨_, _, _, he⟩ | ⟨hf, hn, _, he⟩ <;> rw [he]
  · exact h
  · exact hfault _ s.env
  · exact hfault _ _
  · rw [Flow.state_go, transmitChunk_newDatagrams, ← List.append_assoc]
    exact transmitChunk_holdsSent (s := s.askChunk.2) (h.of_base_le id)
      (by simp [hm]) (s.filling_iff.mp hf).1 hn

theorem recvPhase_mode_idle {s : State} (h : (recvPhase s).state.mode = .idle) : s.mode = .idle := by
  rcases recvPhase_cases s with ⟨_, he⟩ | ⟨_, _, _, he⟩ | ⟨_, _, _, _, _, he⟩ | ⟨_, _, _, _, _, he⟩ <;>
    rw [he] at h
  case inr.inr.inl => cases h
  case inr.inr.inr =>
    rw [Flow.state_go, retimeAfterAck_eq] at h
    exact h
  all_goals exact h

theorem recvPhase_holdsSent {s : State} {sent : List Datagram} (h : s.HoldsSent (sent ++ s.newDatagrams)) :
    (recvPhase s).state.HoldsSent (sent ++ (recvPhase s).state.newDatagrams) := by
  obtain ⟨hp, hn, _, ho, _, _, he, htx⟩ := recvPhase_frame s
  rw [State.newDatagrams_of_tx htx]
  exact h.of_base_le recvPhase_mode_idle hp ho he hn (recvPhase_base_le s)

theorem timeoutPhase_holdsSent {s : State} {sent : List Datagram} (h : s.HoldsSent (sent ++ s.newDatagrams)) :
    (timeoutPhase s).state.HoldsSent (sent ++ (timeoutPhase s).state.newDatagrams) := by
  obtain ⟨hp, hm, hb, hn, _, _, _, ho, _, _, he⟩ := timeoutPhase_frame s
  rw [timeoutPhase_newDatagrams]
  exact h.of_base_le (fun hi => hm ▸ hi) hp ho he hn (by rw [hb])

theorem termPhase_holdsSent {s : State} {sent : List Datagram} (h : s.HoldsSent (sent ++ s.newDatagrams)) :
    (termPhase s).state.HoldsSent (sent ++ (termPhase s).state.newDatagrams) := by
  rw [termPhase_newDatagrams]
  exact h.of_base_le nofun

/-- OPEN starts the numbering again, but in IDLE it has not begun. -/
theorem openPhase_holdsSent {s : State} {sent : List Datagram} (hm : s.mode = .idle)
    (h : s.HoldsSent (sent ++ s.newDatagrams)) :
    (openPhase s).state.HoldsSent (sent ++ (openPhase s).state.newDatagrams) := by
  rw [State.newDatagrams_of_tx (openPhase_tx s)]
  rcases openPhase_cases s with ⟨_, he⟩ | ⟨_, he⟩ <;> rw [he]
  · have hnil : sent ++ s.newDatagrams = [] := by
      have hcount := h.count
      rw [h.idle_fresh hm] at hcount
      exact List.length_eq_zero_iff.mp (by simpa using hcount)
    rw [hnil]
    exact State.holdsSent_fresh rfl rfl
  · exact h.of_base_le nofun

theorem State.HoldsSent.beginCommand {s : State} {sent : List Datagram} (h : s.HoldsSent sent) :
    s.beginCommand.HoldsSent (sent ++ s.beginCommand.newDatagrams) := by
  rw [State.newDatagrams_of_events_nil s.beginCommand_events, List.append_nil]
  exact h.of_base_le id

theorem commandFlow_holdsSent {s : State} {sent : List Datagram} (i : Instr) (h : s.HoldsSent sent) :
    (commandFlow i s).state.HoldsSent (sent ++ (commandFlow i s).state.newDatagrams) :=
  commandFlow_keeps (fun u => u.HoldsSent (sent ++ u.newDatagrams)) i s h.beginCommand
    (fun _ _ hu => hu.of_base_le nofun)
    (fun _ _ hu => hu.of_base_le id)
    (fun _ hm hu => openPhase_holdsSent hm hu) (fun _ hm hu => sendPhase_holdsSent hm hu)
    (fun _ _ hu => recvPhase_holdsSent hu) (fun _ _ hu => timeoutPhase_holdsSent hu)
    (fun _ _ _ hu => termPhase_holdsSent hu)

theorem illegalCommand_holdsSent {s : State} {sent : List Datagram} (h : s.HoldsSent sent) :
    s.illegalCommand.state.HoldsSent (sent ++ s.illegalCommand.state.newDatagrams) := by
  rcases s.illegalCommand_cases with ⟨_, he⟩ | ⟨_, he⟩ <;> rw [he]
  · exact h.beginCommand
  · exact h.beginCommand.of_base_le nofun

theorem execute_holdsSent {s t : State} {sent : List Datagram} {w : Byte} (h : s.HoldsSent sent)
    (ht : execute w s = .next t) : t.HoldsSent (sent ++ t.newDatagrams) := by
  cases hw : decode w with
  | ok i =>
    rw [execute_of_ok hw, exec_eq_commandFlow] at ht
    injection ht with ht
    exact ht ▸ commandFlow_holdsSent i h
  | error e =>
    rw [execute_of_error hw] at ht
    injection ht with ht
    exact ht ▸ illegalCommand_holdsSent h

/-! Runs -/

theorem Run.holdsSent {s : State} {sent : List Datagram} (hs : Run s sent) : s.HoldsSent sent := by
  induction hs with
  | reset p => exact State.holdsSent_fresh rfl rfl
  | input _ _ _ ih => exact ih.of_base_le id
  | @command s t sent w rest _ hw ht ih =>
    rw [step_of_host_cmd hw] at ht
    have hin : ({ s with host := rest } : State).HoldsSent sent := ih.of_base_le id
    exact execute_holdsSent hin ht
  | resetAgain _ hw ht _ =>
    rw [step_of_host_reset hw] at ht
    injection ht with ht
    exact ht ▸ State.holdsSent_fresh rfl rfl

theorem Run.reachable {s : State} {sent : List Datagram} (hs : Run s sent) : Reachable s := by
  induction hs with
  | reset p => exact .reset p
  | input h e _ ih => exact .input h e ih
  | command _ _ ht ih => exact .step ih ht
  | resetAgain _ _ ht ih => exact .step ih ht

/-- The window's copies are the last datagrams sent, from number `base` on. -/
theorem State.HoldsSent.windowCopies_eq {s : State} {sent : List Datagram} (h : s.HoldsSent sent) :
    s.windowCopies = sent.drop (s.base.toNat - 1) := by
  have hcount := h.count
  have hpos := h.base_pos
  refine List.ext_getElem? fun j => ?_
  rw [List.getElem?_drop]
  by_cases hj : s.base.toNat + j < s.nextSeqNum.toNat
  · have hout : j < s.outstanding := Nat.lt_sub_iff_add_lt'.mpr hj
    rw [← Nat.sub_add_comm hpos, h.stored _ (Nat.le_add_right _ _) hj]
    simp [State.windowCopies, hout]
  · rw [List.getElem?_eq_none (by simp [State.windowCopies, State.outstanding]; omega),
      List.getElem?_eq_none (by omega)]

/-- The datagrams sent are numbered from 1, so the last of them from `base` on by the window's numbers. -/
theorem State.HoldsSent.drop_numbers {s : State} {sent : List Datagram} (h : s.HoldsSent sent) :
    (sent.drop (s.base.toNat - 1)).map (fun d => d.seqNum.toNat) =
      List.range' s.base.toNat (s.nextSeqNum.toNat - s.base.toNat) := by
  have hcount := h.count
  have hpos := h.base_pos
  refine List.ext_getElem (by simp; omega) fun j hj _ => ?_
  simp only [List.getElem_map, List.getElem_drop, List.getElem_range', h.numbered]
  omega

/-- An expiry of an armed timer resends the window, which is not empty (R23). -/
theorem exec_tmo_of_expiry {s : State} {e : Env} (hm : s.mode = .active) (ha : s.timerArmed = true)
    (he : s.env.askExpired = (true, e)) :
    exec .tmo s = .next (retransmitWindow { s.beginCommand with env := e }) := by
  rw [exec_tmo_of_active hm]
  rcases timeoutPhase_cases s.beginCommand with ⟨hg | hg, _⟩ | ⟨_, _, hx, _⟩ | ⟨_, _, _, h⟩
  · simp [ha] at hg
  · simp at hg
  · simp [he] at hx
  · rw [h, State.askExpired, State.beginCommand_env, he]
    rfl

/-- Settles O41: what is resent are the ring's copies of the window, and these are the datagrams sent. -/
theorem retransmissionsAreTheOriginals : Obligations.RetransmissionsAreTheOriginals := by
  refine ⟨fun i s t sent hs ht hne => ?_, fun s sent e hs hm ha he => ?_⟩
  · have hcopies := (exec_retxDatagrams ht).resolve_left hne
    rw [exec_eq_commandFlow] at ht
    injection ht with ht
    have hold : t.HoldsSent (sent ++ t.newDatagrams) := ht ▸ commandFlow_holdsSent i hs.holdsSent
    rw [hcopies, hold.windowCopies_eq]
    exact ⟨rfl, hold.drop_numbers⟩
  · refine ⟨_, exec_tmo_of_expiry hm ha he, ?_, ?_, rfl⟩
    · rw [retransmitWindow_newDatagrams]
      exact State.newDatagrams_of_events_nil rfl
    · have hnone : ({ s.beginCommand with env := e } : State).retxDatagrams = [] :=
        State.retxDatagrams_of_events_nil rfl
      obtain ⟨hle, _, htimer⟩ := reachableWindowAndTimer s hs.reachable
      have hopen : s.base.toNat ≠ s.nextSeqNum.toNat := fun h => htimer.mp ha (BitVec.eq_of_toNat_eq h)
      have hout : s.nextSeqNum.toNat - s.base.toNat ≠ 0 := by omega
      rw [retransmitWindow_retxDatagrams, hnone]
      simpa [State.windowCopies, State.outstanding] using hout

end Sys2Proof.Machine
end

section
/-! PROOFS. The send phase (41_send.md rule R73): what the rest of a command leaves alone of what the send phase has
done, and what a command does to allSent. -/

namespace Sys2Proof.Machine

/-! The NEW datagrams among a command's outputs -/

theorem State.beginCommand_newDatagrams (s : State) : s.beginCommand.newDatagrams = [] :=
  State.newDatagrams_of_events_nil s.beginCommand_events

theorem State.mem_newDatagrams {s : State} {d : Datagram} : d ∈ s.newDatagrams ↔ .tx .new d ∈ s.events := by
  simp only [State.newDatagrams, State.tx, List.mem_filterMap]
  constructor
  · rintro ⟨⟨k, d'⟩, ⟨e, he, htx⟩, hd⟩
    cases e with
    | tmr c => cases htx
    | tx k' d'' =>
      obtain ⟨rfl, rfl⟩ : k' = k ∧ d'' = d' := by simpa using htx
      obtain ⟨rfl, rfl⟩ : k' = .new ∧ d'' = d := by simpa using hd
      exact he
  · exact fun h => ⟨(.new, d), ⟨_, h, rfl⟩, rfl⟩

/-! What only the send phase and OPEN write -/

/-- From `s` to `t` no NEW datagram is sent, allSent and the ring stay, and no chunk is asked for. -/
structure State.SendKept (s t : State) : Prop where
  newDatagrams : t.newDatagrams = s.newDatagrams
  allSent : t.allSent = s.allSent
  orb : t.orb = s.orb
  chunk : t.env.chunk = s.env.chunk

theorem State.SendKept.refl (s : State) : s.SendKept s := ⟨rfl, rfl, rfl, rfl⟩

theorem State.SendKept.trans {s t u : State} (h : s.SendKept t) (h' : t.SendKept u) : s.SendKept u where
  newDatagrams := h'.newDatagrams.trans h.newDatagrams
  allSent := h'.allSent.trans h.allSent
  orb := h'.orb.trans h.orb
  chunk := h'.chunk.trans h.chunk

@[simp] theorem Env.askRx_snd_chunk (e : Env) : e.askRx.2.chunk = e.chunk := by
  cases h : e.rx <;> simp [Env.askRx, Env.drawn, h]

@[simp] theorem Env.askExpired_snd_chunk (e : Env) : e.askExpired.2.chunk = e.chunk := by
  cases h : e.tmrExpired <;> simp [Env.askExpired, Env.drawn, h]

theorem recvPhase_chunk (s : State) : (recvPhase s).state.env.chunk = s.env.chunk := by
  rcases recvPhase_cases s with ⟨_, h⟩ | ⟨_, _, _, h⟩ | ⟨_, _, _, _, _, h⟩ | ⟨_, _, _, _, _, h⟩ <;> rw [h] <;>
    simp [retimeAfterAck_eq]

theorem timeoutPhase_chunk (s : State) : (timeoutPhase s).state.env.chunk = s.env.chunk := by
  rcases timeoutPhase_cases s with ⟨_, h⟩ | ⟨_, _, _, h⟩ | ⟨_, _, _, h⟩ <;> rw [h] <;>
    simp [retransmitWindow_eq]

theorem recvPhase_sendKept (s : State) : s.SendKept (recvPhase s).state := by
  obtain ⟨_, _, hall, horb, _⟩ := recvPhase_frame s
  exact ⟨State.newDatagrams_of_tx (recvPhase_tx s), hall, horb, recvPhase_chunk s⟩

theorem timeoutPhase_sendKept (s : State) : s.SendKept (timeoutPhase s).state := by
  obtain ⟨_, _, _, _, hall, _, _, horb, _⟩ := timeoutPhase_frame s
  exact ⟨timeoutPhase_newDatagrams s, hall, horb, timeoutPhase_chunk s⟩

theorem termPhase_sendKept (s : State) : s.SendKept (termPhase s).state :=
  ⟨termPhase_newDatagrams s, rfl, rfl, rfl⟩

theorem Flow.andThen_sendKept {g : State → Flow} (hg : ∀ u : State, u.SendKept (g u).state) (f : Flow) :
    f.state.SendKept (f.andThen g).state := by
  cases f with
  | go u => exact hg u
  | stop u => exact .refl u

/-- Every command leaves alone what the send phase writes, but for OPEN and for a send phase at its start. -/
theorem exec_sendKept_cases {i : Instr} {s t : State} (ht : exec i s = .next t) :
    s.beginCommand.SendKept t ∨
    (s.mode = .idle ∧ t = (openPhase s.beginCommand).state) ∨
    (sendPhase s.beginCommand).state.SendKept t := by
  rcases exec_cases ht with rfl | ⟨_, _, _, _, rfl⟩ | ⟨_, _, _, _, rfl⟩ | ⟨_, hm, rfl⟩ | ⟨_, _, _, rfl⟩ |
    ⟨_, _, rfl⟩ | ⟨_, _, rfl⟩ | ⟨_, _, rfl⟩ | ⟨rfl, hm, hd⟩
  · exact .inl (.refl _)
  · exact .inl ⟨rfl, rfl, rfl, rfl⟩
  · exact .inl ⟨rfl, rfl, rfl, rfl⟩
  · exact .inr (.inl ⟨hm, rfl⟩)
  · exact .inl (termPhase_sendKept _)
  · exact .inr (.inr (.refl _))
  · exact .inl (recvPhase_sendKept _)
  · exact .inl (timeoutPhase_sendKept _)
  · rw [exec_tick_of_active hm hd] at ht
    injection ht with ht
    have hrecv := Flow.andThen_sendKept recvPhase_sendKept (sendPhase s.beginCommand)
    have htimeout := Flow.andThen_sendKept timeoutPhase_sendKept ((sendPhase s.beginCommand).andThen recvPhase)
    exact .inr (.inr (ht ▸ hrecv.trans htimeout))

/-! What a send phase, and so a command, does to allSent (R73) -/

theorem shortChunk_iff (p : Params) (c : Chunk) : shortChunk p c = true ↔ c.bytes.length < p.M := by
  simp [shortChunk]

/-- `t` is `s` after the chunk `c` was sent as a NEW datagram: stored, and allSent set exactly if it is short. -/
structure State.SentChunk (s t : State) (c : Chunk) : Prop where
  unfinished : s.allSent = false
  newDatagrams : t.newDatagrams = s.newDatagrams ++ [frameData s.nextSeqNum c]
  allSent : t.allSent = shortChunk s.params c
  orb : t.orb = s.orb.write (slotOf s.params s.nextSeqNum.toNat) (frameData s.nextSeqNum c)

theorem State.SentChunk.of_sendKept {s t u : State} {c : Chunk} (h : s.SentChunk t c) (hk : t.SendKept u) :
    s.SentChunk u c where
  unfinished := h.unfinished
  newDatagrams := hk.newDatagrams.trans h.newDatagrams
  allSent := hk.allSent.trans h.allSent
  orb := hk.orb.trans h.orb

theorem transmitChunk_sentChunk {s : State} (h : s.allSent = false) (c : Chunk) :
    s.SentChunk (transmitChunk c s.askChunk.2) c :=
  ⟨h, transmitChunk_newDatagrams c s.askChunk.2, by simp [transmitChunk_eq, h], by simp [transmitChunk_eq]⟩

/-- From `s` to `t` no NEW datagram is sent and allSent is not set; in a session where it is set it stays, and no chunk
is asked for. -/
structure State.SentNothing (s t : State) : Prop where
  newDatagrams : t.newDatagrams = s.newDatagrams
  unset : s.allSent = false → t.allSent = false
  finished : s.mode = .active → s.allSent = true → t.allSent = true ∧ t.env.chunk = s.env.chunk

theorem State.SendKept.sentNothing {s t : State} (h : s.SendKept t) : s.SentNothing t where
  newDatagrams := h.newDatagrams
  unset := h.allSent.trans
  finished _ ha := ⟨h.allSent.trans ha, h.chunk⟩

theorem openPhase_sentNothing {s : State} (hm : s.mode = .idle) : s.SentNothing (openPhase s).state where
  newDatagrams := State.newDatagrams_of_tx (openPhase_tx s)
  unset ha := by
    rcases openPhase_cases s with ⟨_, h⟩ | ⟨_, h⟩ <;> rw [h]
    · rfl
    · exact ha
  finished ha := by simp [hm] at ha

/-- Whatever leaves alone what the send phase writes, run after a send phase, sends a chunk or nothing with it. A
chunk too long is consumed and not sent. -/
theorem sendPhase_sends {s t : State} (hk : (sendPhase s).state.SendKept t) :
    (∃ c, s.SentChunk t c) ∨ s.SentNothing t := by
  rcases sendPhase_cases s with ⟨_, h⟩ | ⟨_, _, h⟩ | ⟨hf, _, _, h⟩ | ⟨hf, _, _, h⟩ <;> rw [h] at hk
  · exact .inr hk.sentNothing
  · have hfault : s.SendKept (s.enterFault .seqOverflow) := ⟨rfl, rfl, rfl, rfl⟩
    exact .inr (hfault.trans hk).sentNothing
  · have hall := (s.filling_iff.mp hf).2
    exact .inr ⟨hk.newDatagrams, hk.allSent.trans, fun _ ha => by simp [hall] at ha⟩
  · have hall := (s.filling_iff.mp hf).2
    exact .inl ⟨_, (transmitChunk_sentChunk hall _).of_sendKept hk⟩

/-- A command sends one chunk or no NEW datagram. -/
theorem exec_sends {i : Instr} {s t : State} (ht : exec i s = .next t) :
    (∃ c, s.beginCommand.SentChunk t c) ∨ s.beginCommand.SentNothing t := by
  rcases exec_sendKept_cases ht with hk | ⟨hm, rfl⟩ | hk
  · exact .inr hk.sentNothing
  · exact .inr (openPhase_sentNothing hm)
  · exact sendPhase_sends hk

theorem State.SentNothing.not_mem_events {s t : State} (h : s.beginCommand.SentNothing t) (d : Datagram) :
    .tx .new d ∉ t.events := by
  rw [← State.mem_newDatagrams, h.newDatagrams, State.beginCommand_newDatagrams]
  exact List.not_mem_nil

/-- Settles O32: a command that sends a NEW datagram runs the send phase on one chunk, whose length is the datagram's;
the rest of the command leaves allSent and the ring alone. -/
theorem shortChunkSetsAllSentForGood : Obligations.ShortChunkSetsAllSentForGood := by
  refine ⟨fun i s t d ht hd => ?_, fun i s t ht ha ha' => ?_, fun i s t hm ha ht => ?_⟩ <;>
    rcases exec_sends ht with ⟨c, hc⟩ | hn
  · obtain rfl : d = frameData s.nextSeqNum c := by
      rw [← State.mem_newDatagrams, hc.newDatagrams, State.beginCommand_newDatagrams] at hd
      exact List.mem_singleton.mp hd
    exact ⟨hc.allSent ▸ shortChunk_iff s.params c, hc.orb⟩
  · exact absurd hd (hn.not_mem_events d)
  · exact ⟨_, State.mem_newDatagrams.mp (hc.newDatagrams ▸ List.mem_concat_self)⟩
  · exact absurd ((hn.unset ha).symm.trans ha') nofun
  · exact absurd (ha.symm.trans hc.unfinished) nofun
  · obtain ⟨hall, hchunk⟩ := hn.finished hm ha
    exact ⟨hall, hchunk, hn.not_mem_events⟩

end Sys2Proof.Machine
end

section
/-! PROOFS. The expiry gate and who passes it (43_timeout_retransmit.md rules R84, R90): a command resends only in a
timeout phase whose gate asked, and up to there it gave no timer command. -/

namespace Sys2Proof.Machine

/-- Settles O39, by the two ways of the gate. -/
theorem expiryGateAsksOnlyArmedTimer : Obligations.ExpiryGateAsksOnlyArmedTimer := by
  intro s
  rcases s.expiredEff_cases with ⟨hclosed, he⟩ | ⟨ha, hs, he⟩
  · refine ⟨fun _ => he, fun _ _ => he, fun b e ha hs => ?_⟩
    simp [ha, hs] at hclosed
  · refine ⟨fun h => absurd (ha.symm.trans h) nofun, fun _ h => absurd (hs.symm.trans h) nofun,
      fun b e _ _ hask => ?_⟩
    rw [he, State.askExpired, hask]

/-! The outputs by kind -/

theorem State.mem_tx {s : State} {k : TxKind} {d : Datagram} : (k, d) ∈ s.tx ↔ .tx k d ∈ s.events := by
  simp only [State.tx, List.mem_filterMap]
  constructor
  · rintro ⟨e, he, htx⟩
    cases e with
    | tmr c => cases htx
    | tx k' d' =>
      obtain ⟨rfl, rfl⟩ : k' = k ∧ d' = d := by simpa using htx
      exact he
  · exact fun h => ⟨_, h, rfl⟩

theorem State.mem_retxDatagrams {s : State} {d : Datagram} : d ∈ s.retxDatagrams ↔ .tx .retx d ∈ s.events := by
  simp [State.retxDatagrams, State.mem_tx]

theorem retransmitWindow_tmr (s : State) : (retransmitWindow s).tmr = s.tmr ++ [.start] := by
  simp [State.tmr, retransmitWindow_eq, retransmissions, List.filterMap_map]

/-! The parts of a command before its timeout phase -/

/-- From `s` to `t` nothing is resent, and if the gate of `t` still asks the timer (R84), that of `s` did and no timer
command was given: a START would mask the expiry and a STOP would disarm the timer. -/
structure State.GateKept (s t : State) : Prop where
  retxDatagrams : t.retxDatagrams = s.retxDatagrams
  gate : t.timerArmed = true → t.startedThisCmd = false →
    s.timerArmed = true ∧ s.startedThisCmd = false ∧ t.tmr = s.tmr

theorem State.GateKept.refl (s : State) : s.GateKept s := ⟨rfl, fun ha hs => ⟨ha, hs, rfl⟩⟩

theorem State.GateKept.trans {s t u : State} (h : s.GateKept t) (h' : t.GateKept u) : s.GateKept u where
  retxDatagrams := h'.retxDatagrams.trans h.retxDatagrams
  gate ha hs := by
    obtain ⟨ha', hs', htmr'⟩ := h'.gate ha hs
    obtain ⟨ha'', hs'', htmr⟩ := h.gate ha' hs'
    exact ⟨ha'', hs'', htmr'.trans htmr⟩

theorem sendPhase_gateKept (s : State) : s.GateKept (sendPhase s).state where
  retxDatagrams := sendPhase_retxDatagrams s
  gate := by
    rcases sendPhase_cases s with ⟨_, h⟩ | ⟨_, _, h⟩ | ⟨_, _, _, h⟩ | ⟨_, _, _, h⟩ <;> rw [h]
    case inr.inr.inr =>
      by_cases hb : s.base = s.nextSeqNum <;> simp +contextual [transmitChunk_eq, hb, State.tmr]
    all_goals exact fun ha hs => ⟨ha, hs, rfl⟩

theorem recvPhase_gateKept (s : State) : s.GateKept (recvPhase s).state where
  retxDatagrams := State.retxDatagrams_of_tx (recvPhase_tx s)
  gate := by
    rcases recvPhase_cases s with ⟨_, h⟩ | ⟨_, _, _, h⟩ | ⟨_, _, _, _, _, h⟩ | ⟨r, _, _, _, _, h⟩ <;> rw [h]
    case inr.inr.inr =>
      by_cases hb : toU16 (r.ackNum.toNat + 1) = s.nextSeqNum <;> simp [retimeAfterAck_eq, hb]
    all_goals exact fun ha hs => ⟨ha, hs, rfl⟩

theorem openPhase_gateKept (s : State) : s.GateKept (openPhase s).state where
  retxDatagrams := State.retxDatagrams_of_tx (openPhase_tx s)
  gate := by
    rcases openPhase_cases s with ⟨_, h⟩ | ⟨_, h⟩ <;> rw [h]
    · exact nofun
    · exact fun ha hs => ⟨ha, hs, rfl⟩

theorem termPhase_gateKept (s : State) : s.GateKept (termPhase s).state where
  retxDatagrams := termPhase_retxDatagrams s
  gate ha hs := ⟨ha, hs, by simp [State.tmr, termPhase_eq]⟩

/-! The timeout phase, which ends the commands that have one -/

/-- A timeout phase that resends passed the gate, and adds its own restart alone (R84, R87). -/
theorem timeoutPhase_resends {s : State} (h : (timeoutPhase s).state.retxDatagrams ≠ s.retxDatagrams) :
    s.timerArmed = true ∧ s.startedThisCmd = false ∧ (timeoutPhase s).state.tmr = s.tmr ++ [.start] := by
  rcases timeoutPhase_cases s with ⟨_, he⟩ | ⟨_, _, _, he⟩ | ⟨ha, hs, _, he⟩ <;> rw [he] at h ⊢
  · exact absurd rfl h
  · exact absurd rfl h
  · exact ⟨ha, hs, retransmitWindow_tmr s.askExpired.2⟩

/-- Every command keeps the gate to its end or to a timeout phase, which is its last. -/
theorem exec_gateKept_cases {i : Instr} {s t : State} (ht : exec i s = .next t) :
    s.beginCommand.GateKept t ∨ ∃ u, s.beginCommand.GateKept u ∧ t = (timeoutPhase u).state := by
  have hsend := sendPhase_gateKept s.beginCommand
  rcases exec_cases ht with rfl | ⟨_, _, _, _, rfl⟩ | ⟨_, _, _, _, rfl⟩ | ⟨_, _, rfl⟩ | ⟨_, _, _, rfl⟩ |
    ⟨_, _, rfl⟩ | ⟨_, _, rfl⟩ | ⟨_, _, rfl⟩ | ⟨rfl, hm, hd⟩
  · exact .inl (.refl _)
  · exact .inl ⟨rfl, fun ha hs => ⟨ha, hs, rfl⟩⟩
  · exact .inl ⟨rfl, fun ha hs => ⟨ha, hs, rfl⟩⟩
  · exact .inl (openPhase_gateKept _)
  · exact .inl (termPhase_gateKept _)
  · exact .inl hsend
  · exact .inl (recvPhase_gateKept _)
  · exact .inr ⟨_, .refl _, rfl⟩
  · rcases exec_tick_cases hm hd ht with hs | ⟨u, hs, hr⟩ | ⟨u, v, hs, hr, rfl⟩ <;> rw [hs] at hsend
    · exact .inl hsend
    · exact .inl (hsend.trans (by simpa [hr] using recvPhase_gateKept u))
    · exact .inr ⟨v, hsend.trans (by simpa [hr] using recvPhase_gateKept u), rfl⟩

/-- Settles O43: what is resent is resent by a timeout phase that passed the gate, and up to there the gate was kept
from the start of the command. -/
theorem spuriousExpiryIsHarmless : Obligations.SpuriousExpiryIsHarmless := by
  intro i s t d ht hd
  have hnone : s.beginCommand.retxDatagrams = [] := State.retxDatagrams_of_events_nil s.beginCommand_events
  have hresent : t.retxDatagrams ≠ [] := List.ne_nil_of_mem (State.mem_retxDatagrams.mpr hd)
  rcases exec_gateKept_cases ht with hkept | ⟨u, hkept, rfl⟩
  · exact absurd (hkept.retxDatagrams.trans hnone) hresent
  · obtain ⟨ha, hs, htmr⟩ := timeoutPhase_resends (hkept.retxDatagrams.trans hnone ▸ hresent)
    obtain ⟨harmed, _, hquiet⟩ := hkept.gate ha hs
    exact ⟨harmed, htmr.trans (congrArg (· ++ [.start]) hquiet), fun htimer => htimer.mp harmed⟩

end Sys2Proof.Machine
end

section
/-! PROOFS. Session control (44_session_control.md): what each command does in the modes that do not admit it, and
OPEN, TERM and RDREG where they have their effect. -/

namespace Sys2Proof.Machine

/-! OPEN (R94) -/

theorem exec_openSession_of_idle {s : State} (h : s.mode = .idle) :
    exec .openSession s = .next (openPhase s.beginCommand).state := by
  simp [exec, execOpen, h]

theorem exec_openSession_of_session {s : State} (h : s.mode = .active ∨ s.mode = .terminated) :
    exec .openSession s = .next (s.beginCommand.enterFault .cmdState) := by
  rcases h with h | h <;> simp [exec, execOpen, h]

theorem exec_openSession_of_faulted {s : State} (h : s.mode = .faulted) :
    exec .openSession s = .next s.beginCommand := by
  simp [exec, execOpen, h]

theorem exec_openSession_of_streamOk {s : State} {e : Env} (hm : s.mode = .idle)
    (he : s.env.askStreamOk = (true, e)) :
    exec .openSession s = .next (createSession { s.beginCommand with env := e }) := by
  rw [exec_openSession_of_idle hm]
  rcases openPhase_cases s.beginCommand with ⟨_, h⟩ | ⟨hx, _⟩
  · rw [h, State.askStreamOk, State.beginCommand_env, he]
    rfl
  · simp [he] at hx

theorem exec_openSession_of_streamFailed {s : State} {e : Env} (hm : s.mode = .idle)
    (he : s.env.askStreamOk = (false, e)) :
    exec .openSession s = .next (({ s.beginCommand with env := e } : State).enterFault .fatalOpen) := by
  rw [exec_openSession_of_idle hm]
  rcases openPhase_cases s.beginCommand with ⟨hx, _⟩ | ⟨_, h⟩
  · simp [he] at hx
  · rw [h, State.askStreamOk, State.beginCommand_env, he]
    rfl

/-- Settles O13: the answer of `stream_ok` decides in IDLE, the mode alone elsewhere; that the window registers of a
failed OPEN hold their reset values is the mode invariant of IDLE. -/
theorem openCreatesSessionOrFaults : Obligations.OpenCreatesSessionOrFaults := by
  intro s
  refine ⟨fun e hm he => exec_openSession_of_streamOk hm he, fun e hm he => ?_,
    exec_openSession_of_session, exec_openSession_of_faulted⟩
  exact ⟨_, exec_openSession_of_streamFailed hm he, rfl, rfl, fun hfresh => hfresh.idle_fresh hm⟩

/-! TERM (R98) -/

theorem exec_term_of_done {s : State} (h : s.mode = .active) (hd : s.done = true) :
    exec .term s = .next (termPhase s.beginCommand).state := by
  simp [exec, execTerm, h, hd]

theorem exec_term_of_not_done {s : State} (hf : s.mode ≠ .faulted) (h : s.mode = .active → s.done = false) :
    exec .term s = .next (s.beginCommand.enterFault .cmdState) := by
  cases hm : s.mode with
  | idle => simp [exec, execTerm, hm]
  | active => simp [exec, execTerm, hm, h hm]
  | terminated => simp [exec, execTerm, hm]
  | faulted => exact absurd hm hf

theorem exec_term_of_faulted {s : State} (h : s.mode = .faulted) : exec .term s = .next s.beginCommand := by
  simp [exec, execTerm, h]

/-- Settles O17: in Done TERM runs the terminal phase, as TICK does; outside it the mode decides. -/
theorem termEndsOnlyADoneSession : Obligations.TermEndsOnlyADoneSession := by
  intro s
  have hterm : s.mode = .active ∧ s.allSent = true ∧ s.base = s.nextSeqNum →
      exec .term s = .next (termPhase s.beginCommand).state :=
    fun ⟨hm, hd⟩ => exec_term_of_done hm (s.done_iff.mpr hd)
  refine ⟨fun h => ?_, hterm, fun hf hn => ?_, exec_term_of_faulted⟩
  · rw [hterm h, exec_tick_of_done h.1 (s.done_iff.mpr h.2)]
  · exact exec_term_of_not_done hf fun hm => Bool.eq_false_iff.mpr fun hd => hn ⟨hm, s.done_iff.mp hd⟩

/-! The commands of a running session, and TICK, outside ACTIVE (R76, R82, R88, R95, R98) -/

theorem State.whenActive_of_no_session {s : State} (h : s.mode = .idle ∨ s.mode = .terminated)
    (phase : State → Flow) : s.whenActive phase = s.raiseFault .cmdState := by
  rcases h with h | h <;> simp [State.whenActive, h]

theorem exec_of_no_session {i : Instr} (hi : i = .send ∨ i = .recv ∨ i = .tmo ∨ i = .term) {s : State}
    (h : s.mode = .idle ∨ s.mode = .terminated) : exec i s = .next (s.beginCommand.enterFault .cmdState) := by
  have hfault := State.whenActive_of_no_session (s := s.beginCommand) h
  rcases hi with rfl | rfl | rfl | rfl
  · simp [exec, execSend, hfault]
  · simp [exec, execRecv, hfault]
  · simp [exec, execTmo, hfault]
  · rcases h with h | h <;> exact exec_term_of_not_done (by simp [h]) (by simp [h])

theorem exec_tick_of_idle {s : State} (h : s.mode = .idle) :
    exec .tick s = .next (s.beginCommand.enterFault .cmdState) := by
  simp [exec, execTick, h]

theorem exec_tick_of_terminated {s : State} (h : s.mode = .terminated) : exec .tick s = .next s.beginCommand := by
  simp [exec, execTick, h]

/-! NOP, and the commands of a mode (R93, R100, R102) -/

/-- Settles O12: NOP is the start of a command (R104) and nothing more. -/
theorem nopOnlyStartsACommand : Obligations.NopOnlyStartsACommand := fun _ => rfl

/-- Settles O14: a command that the mode does not admit faults at once; OPEN asks `stream_ok`, RDREG reads. -/
theorem idleAdmitsOnlyOpenAndRdreg : Obligations.IdleAdmitsOnlyOpenAndRdreg := by
  intro s hm
  refine ⟨fun i hi => ?_, nopOnlyStartsACommand s, fun e he => ?_, fun n r hr => ?_⟩
  · rcases hi with rfl | hi
    · exact exec_tick_of_idle hm
    · exact exec_of_no_session hi (.inl hm)
  · exact ⟨_, exec_openSession_of_streamOk hm he, rfl⟩
  · exact ⟨_, exec_rdreg_of_reg hr s⟩

/-- Settles O15: a command that the mode does not admit faults at once; TICK and NOP only start, RDREG reads. -/
theorem terminatedAdmitsOnlyTickNopRdreg : Obligations.TerminatedAdmitsOnlyTickNopRdreg := by
  intro s hm
  refine ⟨fun i hi => ?_, fun n r hr => exec_rdreg_of_reg hr s, fun i hi => ?_⟩
  · rcases hi with rfl | rfl
    · exact exec_tick_of_terminated hm
    · exact nopOnlyStartsACommand s
  · rcases hi with rfl | hi
    · exact exec_openSession_of_session (.inr hm)
    · exact exec_of_no_session hi (.inr hm)

/-! RDREG (R99) -/

theorem regOfIndex_of_six_le {n : BitVec 4} (h : 6 ≤ n.toNat) : regOfIndex n = none := by
  revert n
  decide

theorem exec_rdreg_of_reserved {n : BitVec 4} (h : regOfIndex n = none) (s : State) :
    exec (.rdreg n) s = .next s.illegalCommand.state := by
  simp [exec, execRdreg, h]

/-- Settles O19: the named registers are read in every mode, a reserved index is an illegal command. -/
theorem rdregReadsRegister : Obligations.RdregReadsRegister := by
  intro s
  refine ⟨fun n v h => ?_, ⟨s.readReg .outst, exec_rdreg_of_reg rfl s, fun _ => s.readReg_outst_toNat⟩,
    fun n hn hm => ?_, fun n hn hm => ?_⟩
  · simp only [List.mem_cons, Prod.mk.injEq, List.not_mem_nil, or_false] at h
    rcases h with ⟨rfl, rfl⟩ | ⟨rfl, rfl⟩ | ⟨rfl, rfl⟩ | ⟨rfl, rfl⟩ | ⟨rfl, rfl⟩
    · exact exec_rdreg_of_reg (r := .status) rfl s
    · exact exec_rdreg_of_reg (r := .base) rfl s
    · exact exec_rdreg_of_reg (r := .next) rfl s
    · exact exec_rdreg_of_reg (r := .window) rfl s
    · exact exec_rdreg_of_reg (r := .maxpay) rfl s
  · rw [exec_rdreg_of_reserved (regOfIndex_of_six_le hn)]
    rcases s.illegalCommand_cases with ⟨hf, _⟩ | ⟨_, h⟩
    · exact absurd hf hm
    · rw [h]
      rfl
  · rw [exec_rdreg_of_reserved (regOfIndex_of_six_le hn)]
    rcases s.illegalCommand_cases with ⟨_, h⟩ | ⟨hf, _⟩
    · rw [h]
      rfl
    · exact absurd hm hf

end Sys2Proof.Machine
end

section
/-! PROOFS. The invariant (10_state.md rules R22, R23, R31; 20_memory.md rule R36): what a command can do, as one
rule for properties of its end, and every clause of the invariant kept by every step. -/

namespace Sys2Proof.Machine

/-! A property of a command's end from the ends of what it runs -/

/-- The rule for one command from a given state: unlike `commandFlow_keeps`, a fault that is not a phase's has a code
other than NONE and RING_OVERWRITE, and OPEN's phase starts in IDLE. -/
theorem exec_keeps (P : State → Prop) {i : Instr} {s t : State} (ht : exec i s = .next t) (hbegin : P s.beginCommand)
    (hfault : ∀ c, c ≠ .none → c ≠ .ringOverwrite → P (s.beginCommand.enterFault c))
    (hread : ∀ v, P { s.beginCommand with rdData := v })
    (hopen : s.mode = .idle → P (openPhase s.beginCommand).state)
    (hsend : ∀ u, u.mode = .active → P u → P (sendPhase u).state)
    (hrecv : ∀ u, u.mode = .active → P u → P (recvPhase u).state)
    (htmo : ∀ u, u.mode = .active → P u → P (timeoutPhase u).state)
    (hterm : s.mode = .active → s.done = true → P (termPhase s.beginCommand).state) : P t := by
  rcases exec_cases ht with rfl | ⟨c, hc, hc', _, rfl⟩ | ⟨_, _, _, _, rfl⟩ | ⟨_, hm, rfl⟩ | ⟨_, hm, hd, rfl⟩ |
    ⟨_, hm, rfl⟩ | ⟨_, hm, rfl⟩ | ⟨_, hm, rfl⟩ | ⟨rfl, hm, hd⟩
  · exact hbegin
  · exact hfault c hc hc'
  · exact hread _
  · exact hopen hm
  · exact hterm hm hd
  · exact hsend _ hm hbegin
  · exact hrecv _ hm hbegin
  · exact htmo _ hm hbegin
  · have hsent := hsend s.beginCommand hm hbegin
    rcases exec_tick_cases hm hd ht with hs | ⟨u, hs, hr⟩ | ⟨u, v, hs, hr, rfl⟩ <;> rw [hs] at hsent
    · exact hsent
    · have hreceived := hrecv u ((sendPhase_go_mode hs).trans hm) hsent
      rwa [hr] at hreceived
    · have hmu : u.mode = .active := (sendPhase_go_mode hs).trans hm
      have hreceived := hrecv u hmu hsent
      rw [hr] at hreceived
      exact htmo v ((recvPhase_go_mode hr).trans hmu) hreceived

/-- A step waits, resets or executes the word delivered (R92, R120, R126). -/
theorem step_input_cases {s t : State} (ht : step s = .next t) :
    t = s ∨ (∃ rest, t = ({ s with host := rest } : State).applyReset) ∨
      ∃ w rest, execute w { s with host := rest } = .next t := by
  rcases step_cases ht with ⟨_, h⟩ | ⟨rest, _, h⟩ | ⟨w, rest, i, _, hw, rfl⟩ | ⟨w, rest, e, _, hw, rfl⟩
  · exact .inl h
  · exact .inr (.inl ⟨rest, h⟩)
  · exact .inr (.inr ⟨w, rest, (execute_of_ok hw _).trans (exec_eq_commandFlow i _)⟩)
  · exact .inr (.inr ⟨w, rest, execute_of_error hw _⟩)

/-! How a phase ends: in its mode, or in FAULTED with a code (R106, R107) -/

/-- From `s` to `t` the mode and the code stay, or a fault with a code other than NONE and RING_OVERWRITE was taken. -/
def State.StaysOrFaults (s t : State) : Prop :=
  (t.mode = s.mode ∧ t.faultCode = s.faultCode) ∨
    (t.mode = .faulted ∧ t.faultCode ≠ .none ∧ t.faultCode ≠ .ringOverwrite)

theorem State.StaysOrFaults.trans {s t u : State} (h : s.StaysOrFaults t) (h' : t.StaysOrFaults u) :
    s.StaysOrFaults u := by
  rcases h' with ⟨hm', hc'⟩ | hf'
  · rcases h with ⟨hm, hc⟩ | hf
    · exact .inl ⟨hm'.trans hm, hc'.trans hc⟩
    · exact .inr (by rwa [hm', hc'])
  · exact .inr hf'

theorem State.staysOrFaults_enterFault {s t : State} {c : FaultCode} (h : c ≠ .none) (h' : c ≠ .ringOverwrite) :
    s.StaysOrFaults (t.enterFault c) := .inr ⟨rfl, h, h'⟩

theorem sendPhase_staysOrFaults (s : State) : s.StaysOrFaults (sendPhase s).state := by
  rcases sendPhase_cases s with ⟨_, h⟩ | ⟨_, _, h⟩ | ⟨_, _, _, h⟩ | ⟨_, _, _, h⟩ <;> rw [h]
  · exact .inl ⟨rfl, rfl⟩
  · exact State.staysOrFaults_enterFault (by decide) (by decide)
  · exact State.staysOrFaults_enterFault (by decide) (by decide)
  · exact .inl (by simp [transmitChunk_eq])

theorem recvPhase_staysOrFaults (s : State) : s.StaysOrFaults (recvPhase s).state := by
  rcases recvPhase_cases s with ⟨_, h⟩ | ⟨_, _, _, h⟩ | ⟨_, _, _, _, _, h⟩ | ⟨_, _, _, _, _, h⟩ <;> rw [h]
  · exact .inl ⟨rfl, rfl⟩
  · exact .inl ⟨rfl, rfl⟩
  · exact State.staysOrFaults_enterFault (by decide) (by decide)
  · exact .inl (by simp [retimeAfterAck_eq])

theorem timeoutPhase_staysOrFaults (s : State) : s.StaysOrFaults (timeoutPhase s).state := by
  obtain ⟨_, hm, _, _, _, _, hc, _⟩ := timeoutPhase_frame s
  exact .inl ⟨hm, hc⟩

/-! What the mode says of the registers, phase by phase -/

/-- A fault with a code, from a state where numbering had started at 1. -/
theorem State.modeExact_of_faulted {t : State} (hm : t.mode = .faulted) (hc : t.faultCode ≠ .none)
    (hb : 1 ≤ t.base.toNat) : t.modeExact where
  faulted_iff := iff_of_true hm hc
  idle_fresh h := by simp [hm] at h
  terminated_done h := by simp [hm] at h
  base_pos := hb

/-- In ACTIVE only the code and the base count. -/
theorem State.modeExact_of_active {t : State} (hm : t.mode = .active) (hc : t.faultCode = .none)
    (hb : 1 ≤ t.base.toNat) : t.modeExact where
  faulted_iff := iff_of_false (by simp [hm]) (by simp [hc])
  idle_fresh h := by simp [hm] at h
  terminated_done h := by simp [hm] at h
  base_pos := hb

theorem State.modeExact.faultCode_eq_none {s : State} (h : s.modeExact) (hm : s.mode ≠ .faulted) :
    s.faultCode = .none := by
  by_contra hc
  exact hm (h.faulted_iff.mpr hc)

/-- A phase of a session that does not move the base back keeps what the mode says. -/
theorem State.modeExact.of_phase {s t : State} (h : s.modeExact) (hm : s.mode = .active) (hst : s.StaysOrFaults t)
    (hb : s.base.toNat ≤ t.base.toNat) : t.modeExact := by
  have hpos := h.base_pos.trans hb
  rcases hst with ⟨hm', hc'⟩ | ⟨hm', hc', _⟩
  · exact State.modeExact_of_active (hm'.trans hm) (hc'.trans (h.faultCode_eq_none (by simp [hm]))) hpos
  · exact State.modeExact_of_faulted hm' hc' hpos

theorem State.modeExact.beginCommand {s : State} (h : s.modeExact) : s.beginCommand.modeExact :=
  ⟨h.faulted_iff, h.idle_fresh, h.terminated_done, h.base_pos⟩

theorem openPhase_modeExact {s : State} (h : s.modeExact) (hm : s.mode = .idle) : (openPhase s).state.modeExact := by
  rcases openPhase_cases s with ⟨_, he⟩ | ⟨_, he⟩ <;> rw [he]
  · exact State.modeExact_of_active rfl (h.faultCode_eq_none (by simp [hm])) (Nat.le_refl 1)
  · exact State.modeExact_of_faulted rfl nofun h.base_pos

theorem termPhase_modeExact {s : State} (h : s.modeExact) (hm : s.mode = .active) (hd : s.done = true) :
    (termPhase s).state.modeExact where
  faulted_iff := iff_of_false nofun (not_not_intro (h.faultCode_eq_none (by simp [hm])))
  idle_fresh := nofun
  terminated_done _ := s.done_iff.mp hd
  base_pos := h.base_pos

theorem exec_modeExact {i : Instr} {s t : State} (h : s.modeExact) (ht : exec i s = .next t) : t.modeExact := by
  have hb := h.beginCommand
  refine exec_keeps State.modeExact ht hb (fun c hc _ => State.modeExact_of_faulted rfl hc h.base_pos)
    (fun _ => ⟨h.faulted_iff, h.idle_fresh, h.terminated_done, h.base_pos⟩) (openPhase_modeExact hb)
    (fun u hm hu => hu.of_phase hm (sendPhase_staysOrFaults u) ?_)
    (fun u hm hu => hu.of_phase hm (recvPhase_staysOrFaults u) (recvPhase_base_le u))
    (fun u hm hu => hu.of_phase hm (timeoutPhase_staysOrFaults u) ?_) (termPhase_modeExact hb)
  · obtain ⟨_, hbase, _⟩ := sendPhase_frame u
    rw [hbase]
  · obtain ⟨_, _, hbase, _⟩ := timeoutPhase_frame u
    rw [hbase]

theorem illegalCommand_modeExact {s : State} (h : s.modeExact) : s.illegalCommand.state.modeExact := by
  rcases s.illegalCommand_cases with ⟨_, he⟩ | ⟨_, he⟩ <;> rw [he]
  · exact h.beginCommand
  · exact State.modeExact_of_faulted rfl nofun h.base_pos

/-! The ring: its canonical form and its payload bound (R36) -/

/-- A sent chunk goes to a slot below W and is no longer than M. -/
theorem sendPhase_ring {s : State} (h : s.orb.wf s.params.W = true ∧ s.slotsFit) :
    (sendPhase s).state.orb.wf (sendPhase s).state.params.W = true ∧ (sendPhase s).state.slotsFit := by
  rcases sendPhase_cases s with ⟨_, he⟩ | ⟨_, _, he⟩ | ⟨_, _, _, he⟩ | ⟨_, _, hc, he⟩ <;> rw [he]
  case inr.inr.inr =>
    obtain ⟨hwf, hfit⟩ := h
    simp only [Flow.state_go, State.slotsFit, transmitChunk_eq]
    refine ⟨Orb.wf_write _ _ _ _ hwf (slotOf_lt _ _), fun e hmem => ?_⟩
    rcases Orb.mem_write hmem with rfl | hold
    · simpa using hc
    · exact hfit e hold
  all_goals exact h

theorem recvPhase_ring {s : State} (h : s.orb.wf s.params.W = true ∧ s.slotsFit) :
    (recvPhase s).state.orb.wf (recvPhase s).state.params.W = true ∧ (recvPhase s).state.slotsFit := by
  obtain ⟨hp, _, _, ho, _⟩ := recvPhase_frame s
  simpa [State.slotsFit, hp, ho] using h

theorem timeoutPhase_ring {s : State} (h : s.orb.wf s.params.W = true ∧ s.slotsFit) :
    (timeoutPhase s).state.orb.wf (timeoutPhase s).state.params.W = true ∧ (timeoutPhase s).state.slotsFit := by
  obtain ⟨hp, _, _, _, _, _, _, ho, _⟩ := timeoutPhase_frame s
  simpa [State.slotsFit, hp, ho] using h

theorem ring_kept : KeptByOperations fun s => s.orb.wf s.params.W = true ∧ s.slotsFit where
  input _ _ _ h := h
  reset s _ := ⟨State.resetOf_orb_wf s.params, by simp [State.slotsFit]⟩
  beginCommand _ h := h
  fault _ _ h := h
  read _ _ h := h
  openPhase s _ h := by rcases openPhase_cases s with ⟨_, he⟩ | ⟨_, he⟩ <;> rw [he] <;> exact h
  sendPhase _ _ h := sendPhase_ring h
  recvPhase _ _ h := recvPhase_ring h
  timeoutPhase _ _ h := timeoutPhase_ring h
  termPhase _ _ _ h := h

/-! The invariant -/

theorem State.inv_of_parts {s : State} (hw : s.windowBound ∧ s.timerExact) (hc : s.storedCopies)
    (hr : s.orb.wf s.params.W = true ∧ s.slotsFit) (hm : s.modeExact) : s.Inv :=
  ⟨hw.1, hw.2, hc, hr.1, hr.2, hm⟩

/-- The host's and the collaborators' lists are no part of the invariant. -/
theorem State.Inv.with_input {s : State} (h : s.Inv) (l : List HostInput) (e : Env) :
    ({ s with host := l, env := e } : State).Inv :=
  State.inv_of_parts ⟨h.window, h.timer⟩ h.copies ⟨h.orb_wf, h.slots_fit⟩
    ⟨h.mode_exact.faulted_iff, h.mode_exact.idle_fresh, h.mode_exact.terminated_done, h.mode_exact.base_pos⟩

theorem State.modeExact_of_fresh {s : State} (hm : s.mode = .idle) (hc : s.faultCode = .none) (hb : s.base = 1#16)
    (hn : s.nextSeqNum = 1#16) (ha : s.allSent = false) : s.modeExact where
  faulted_iff := by simp [hm, hc]
  idle_fresh _ := ⟨hb, hn, ha⟩
  terminated_done h := by simp [hm] at h
  base_pos := by simp [hb]

theorem State.inv_resetOf (p : Params) : (State.resetOf p).Inv :=
  State.inv_of_parts ⟨State.windowBound_of_base_eq rfl, by simp [State.timerExact, State.resetOf]⟩
    (State.storedCopies_of_base_eq rfl) ⟨State.resetOf_orb_wf p, by simp [State.slotsFit, State.resetOf]⟩
    (State.modeExact_of_fresh rfl rfl rfl rfl rfl)

theorem State.inv_applyReset (s : State) : s.applyReset.Inv :=
  State.inv_of_parts ⟨State.windowBound_of_base_eq rfl, by simp [State.timerExact]⟩
    (State.storedCopies_of_base_eq rfl) ⟨State.resetOf_orb_wf s.params, by simp [State.slotsFit]⟩
    (State.modeExact_of_fresh rfl rfl rfl rfl rfl)

theorem exec_inv {i : Instr} {s t : State} (h : s.Inv) (ht : exec i s = .next t) : t.Inv := by
  have hmode := exec_modeExact h.mode_exact ht
  rw [exec_eq_commandFlow] at ht
  injection ht with ht
  subst ht
  exact State.inv_of_parts (window_timer_kept.commandFlow i ⟨h.window, h.timer⟩)
    (storedCopies_kept.commandFlow i h.copies) (ring_kept.commandFlow i ⟨h.orb_wf, h.slots_fit⟩) hmode

theorem illegalCommand_inv {s : State} (h : s.Inv) : s.illegalCommand.state.Inv :=
  State.inv_of_parts (window_timer_kept.illegalCommand ⟨h.window, h.timer⟩)
    (storedCopies_kept.illegalCommand h.copies) (ring_kept.illegalCommand ⟨h.orb_wf, h.slots_fit⟩)
    (illegalCommand_modeExact h.mode_exact)

theorem execute_inv {w : Byte} {s t : State} (h : s.Inv) (ht : execute w s = .next t) : t.Inv := by
  cases hw : decode w with
  | ok i =>
    rw [execute_of_ok hw] at ht
    exact exec_inv h ht
  | error e =>
    rw [execute_of_error hw] at ht
    injection ht with ht
    exact ht ▸ illegalCommand_inv h

/-- Settles O51: a reset sets the reset values, and a command keeps each clause: the window, the timer and the ring
through every operation, what the mode says through every phase of a session. -/
theorem invariantKeptByEveryStep : Obligations.InvariantKeptByEveryStep := by
  intro s t h ht
  rcases step_input_cases ht with rfl | ⟨_, rfl⟩ | ⟨_, rest, hx⟩
  · exact h
  · exact State.inv_applyReset _
  · exact execute_inv (h.with_input rest s.env) hx

/-- Settles O50. -/
theorem invariantHoldsAfterReset : Obligations.InvariantHoldsAfterReset :=
  ⟨State.inv_resetOf, State.inv_resetOf _⟩

/-! What was sent and is stored (R31) -/

theorem State.remembers_iff {s : State} {sent : List Datagram} :
    s.Remembers sent ↔ s.Inv ∧ s.HoldsSent sent := by
  constructor
  · intro h
    have hmode := h.inv.mode_exact
    exact ⟨h.inv, hmode.base_pos, fun hm => (hmode.idle_fresh hm).2.1, h.count, h.numbered, h.stored⟩
  · rintro ⟨hinv, hsent⟩
    exact ⟨hinv, hsent.count, hsent.numbered, hsent.stored⟩

/-- Settles O53: the invariant and what a run keeps of the NEW datagrams are each kept, and together they are what is
remembered; in a run number k is the k-th of the datagrams sent. -/
theorem storedCopyIsWhatWasSent : Obligations.StoredCopyIsWhatWasSent := by
  refine ⟨fun p => ?_, fun s t sent w h ht => ?_, fun s _ _ => ?_, fun s sent hs k hlo hhi => ?_⟩
  · exact State.remembers_iff.mpr ⟨State.inv_resetOf p, State.holdsSent_fresh rfl rfl⟩
  · obtain ⟨hinv, hsent⟩ := State.remembers_iff.mp h
    exact State.remembers_iff.mpr ⟨execute_inv hinv ht, execute_holdsSent hsent ht⟩
  · exact State.remembers_iff.mpr ⟨State.inv_applyReset s, State.holdsSent_fresh rfl rfl⟩
  · have hsent := hs.holdsSent
    have hstored := hsent.stored k hlo hhi
    obtain ⟨hlt, hcopy⟩ := List.getElem?_eq_some_iff.mp hstored
    have hpos := hsent.base_pos
    have hnum : (s.ringRead (slotOf s.params k)).seqNum.toNat = k := by
      rw [← hcopy, hsent.numbered]
      omega
    exact ⟨hstored, hnum⟩

end Sys2Proof.Machine
end

section
/-! PROOFS. Encodings (30_encoding.md): the word of a command and the command of a word, and the assembler's lines. -/

namespace Sys2Proof

/-! A word is its two fields (R47 to R49) -/

@[simp] theorem opField_append (arg op : BitVec 4) : opField (arg ++ op) = op :=
  BitVec.extractLsb'_append_eq_right

@[simp] theorem argField_append (arg op : BitVec 4) : argField (arg ++ op) = arg :=
  BitVec.extractLsb'_append_eq_left

theorem argField_append_opField (w : Byte) : argField w ++ opField w = w :=
  (BitVec.extractLsb'_append_extractLsb'_eq_extractLsb' (start₁ := 0) (len₁ := 4) rfl).trans
    BitVec.extractLsb'_eq_self

@[simp] theorem opField_encode (i : Instr) : opField (encode i) = opcodeOf i := opField_append _ _

@[simp] theorem argField_encode (i : Instr) : argField (encode i) = operandOf i := argField_append _ _

/-- A word with the fields of a command is its word. -/
theorem encode_eq_of_fields {i : Instr} {w : Byte} (hop : opcodeOf i = opField w) (harg : operandOf i = argField w) :
    encode i = w := by
  rw [encode, hop, harg, argField_append_opField]

/-! The decoder against the encoder -/

theorem decode_encode {i : Instr} (h : i.wf = true) : decode (encode i) = .ok i := by
  cases i with
  | rdreg n =>
    have hop : (opField (encode (.rdreg n))).toNat = 7 := by simp [opcodeOf]
    have hn : n.toNat ≤ 5 := by simpa [Instr.wf] using h
    rw [decode_of_op_eq_seven hop]
    simp [operandOf, hn]
  | _ => rfl

/-- The opcodes 0 to 6 are those of the commands without operand. -/
theorem decode_plain_of_op_le_six {w : Byte} (h : (opField w).toNat ≤ 6) :
    ∃ i, decode w = decodePlain w i ∧ i.wf = true ∧ opcodeOf i = opField w ∧ operandOf i = 0#4 := by
  have hop : opField w = BitVec.ofNat 4 (opField w).toNat := by simp
  rw [hop]
  unfold decode
  interval_cases (opField w).toNat <;> exact ⟨_, rfl, rfl, rfl, rfl⟩

theorem encode_of_decode {w : Byte} {i : Instr} (h : decode w = .ok i) : i.wf = true ∧ encode i = w := by
  rcases Nat.lt_trichotomy (opField w).toNat 7 with hop | hop | hop
  · obtain ⟨j, hdec, hwf, hj, harg⟩ := decode_plain_of_op_le_six (Nat.le_of_lt_succ hop)
    rw [hdec, decodePlain] at h
    split at h
    · next hzero =>
      injection h with h
      subst h
      exact ⟨hwf, encode_eq_of_fields hj (harg.trans hzero.symm)⟩
    · cases h
  · rw [decode_of_op_eq_seven hop] at h
    split at h
    · next hreg =>
      injection h with h
      subst h
      exact ⟨decide_eq_true hreg, encode_eq_of_fields (BitVec.eq_of_toNat_eq hop.symm) rfl⟩
    · cases h
  · rw [decode_of_eight_le_op hop] at h
    cases h

/-- Settles O4: a word is its two fields, and the decoder reads the command from them. -/
theorem decodeEncodeRoundTrip : Obligations.DecodeEncodeRoundTrip :=
  ⟨fun _ => decode_encode, fun _ _ => encode_of_decode⟩

end Sys2Proof

namespace Sys2Proof.Machine

/-- Settles O3: the word of an index carries it in ARG, and the decoder tests it against 5. -/
theorem rdregIndexNamesRegister : Obligations.RdregIndexNamesRegister := by
  have hword (n : BitVec 4) : decode (n ++ 0x7#4) =
      if n.toNat ≤ 5 then .ok (.rdreg n) else .error (.reservedRegister n) := by
    rw [decode_of_op_eq_seven (by simp), argField_append]
  refine ⟨rfl, fun n hn => ?_, fun n hn => ⟨regOfIndex_of_six_le hn, ?_⟩⟩
  · rw [hword, if_pos hn]
  · rw [hword, if_neg (by omega)]

/-! The assembler (R55) -/

theorem asmBeforeComment_append (line comment : List Char) :
    asmBeforeComment (line ++ ';' :: comment) = asmBeforeComment line := by
  induction line with
  | nil => rfl
  | cons c cs ih =>
    simp only [asmBeforeComment, List.cons_append, List.takeWhile_cons] at ih ⊢
    rw [ih]

/-- Every index that names a register is that register's index. -/
theorem regOfIndex_of_le_five {n : BitVec 4} (h : n.toNat ≤ 5) : ∃ r, regOfIndex n = some r ∧ indexOfReg r = n := by
  have hn : n = BitVec.ofNat 4 n.toNat := by simp
  rw [hn]
  interval_cases n.toNat <;> exact ⟨_, rfl, rfl⟩

theorem assembleLine_rdreg (r : ReadReg) :
    assembleLine (['R', 'D', 'R', 'E', 'G', ' '] ++ asmRegName r) =
      some (some (encode (.rdreg (indexOfReg r)))) := by
  cases r <;> decide

theorem assembleLine_asmText {i : Instr} (h : i.wf = true) :
    ∃ text, asmText i = some text ∧ assembleLine text = some (some (encode i)) := by
  cases i with
  | rdreg n =>
    obtain ⟨r, hr, hn⟩ := regOfIndex_of_le_five (n := n) (by simpa [Instr.wf] using h)
    exact ⟨_, by rw [asmText, hr, Option.map_some], hn ▸ assembleLine_rdreg r⟩
  | _ => exact ⟨_, rfl, by decide⟩

/-- Settles O5: line by line for the commands, register by register for RDREG; the words of a line are read from the
text before its comment. -/
theorem assemblerEmitsEncodedCommand : Obligations.AssemblerEmitsEncodedCommand := by
  refine ⟨fun i => assembleLine_asmText, fun line comment => ?_, by decide, by decide⟩
  rw [assembleLine, asmBeforeComment_append, assembleLine]

end Sys2Proof.Machine
end

section
/-! PROOFS. Steps, reset, the parameters and the modes (00_scope.md, 10_state.md, 44_session_control.md,
70_reset_and_hazards.md). -/

namespace Sys2Proof.Machine

/-! Steps (R9, R92) -/

theorem execute_total (w : Byte) (s : State) : ∃ t, execute w s = .next t := by
  cases h : decode w with
  | ok i => exact ⟨_, (execute_of_ok h s).trans (exec_eq_commandFlow i s)⟩
  | error e => exact ⟨_, execute_of_error h s⟩

theorem step_total (s : State) : ∃ t, step s = .next t := by
  cases h : s.host with
  | nil => exact ⟨_, step_of_host_nil h⟩
  | cons a rest =>
    cases a with
    | reset => exact ⟨_, step_of_host_reset h⟩
    | cmd w =>
      rw [step_of_host_cmd h]
      exact execute_total w _

/-- Settles O7: every command ends as a phase does, and every phase in a state. -/
theorem stepAlwaysAnswersNext : Obligations.StepAlwaysAnswersNext :=
  fun s => ⟨step_total s, fun w => execute_total w s, fun i => ⟨_, exec_eq_commandFlow i s⟩⟩

/-- A number that the decoder reads is a command word. -/
theorem decodeTableWord_eq_some {nbits w : Nat} {i : Instr} (h : decodeTableWord nbits w = some i) :
    ∃ b, tableWord? nbits w = some b ∧ decode b = .ok i := by
  unfold decodeTableWord at h
  split at h
  · cases h
  · next b hb =>
    split at h
    · next j hj =>
      injection h with h
      exact ⟨b, hb, h ▸ hj⟩
    · cases h

theorem step_offerCommand {b : Byte} {i : Instr} (h : decode b = .ok i) (s : State) :
    step (s.offerCommand b) = exec i s := by
  rw [step_of_host_cmd (s := s.offerCommand b) rfl, execute_of_ok h]
  rfl

/-- Settles O6, by what the host delivers next. -/
theorem stepRunsDecodedCommand : Obligations.StepRunsDecodedCommand := by
  refine ⟨fun s w rest i hh hw => ?_, fun s w rest => step_of_host_cmd, fun s rest => step_of_host_reset,
    fun s => step_of_host_nil, fun s nbits w i hw => ?_⟩
  · rw [step_of_host_cmd hh, execute_of_ok hw]
  · obtain ⟨b, hb, hi⟩ := decodeTableWord_eq_some hw
    rw [State.withFetchWord, hb]
    exact step_offerCommand hi s

/-! Reset and the parameters (R5, R7, R126) -/

/-- Settles O9: field by field; a disarmed timer is not asked. -/
theorem resetRestoresResetValues : Obligations.ResetRestoresResetValues :=
  fun _ => ⟨rfl, rfl, rfl, rfl, rfl, rfl, rfl, Orb.read?_nil, rfl, rfl, rfl, rfl, rfl, rfl⟩

/-- Settles O10: `Params.build?` tests the bounds, which every `Params` carries. -/
theorem buildRefusesBadParameters : Obligations.BuildRefusesBadParameters := by
  refine ⟨fun W M h => ⟨⟨W, M, h.1, h.2⟩, dif_pos h, rfl, rfl⟩, fun W M h => dif_neg h, fun s => ?_,
    Nat.le_add_left 1 _⟩
  obtain ⟨hW, hW'⟩ := s.params.W_bounds
  exact ⟨hW, hW', s.params.M_bounds⟩

theorem params_kept (p : Params) : KeptByOperations fun s => s.params = p where
  input _ _ _ h := h
  reset _ h := h
  beginCommand _ h := h
  fault _ _ h := h
  read _ _ h := h
  openPhase s _ h := by rcases openPhase_cases s with ⟨_, he⟩ | ⟨_, he⟩ <;> rw [he] <;> exact h
  sendPhase s _ h := (sendPhase_frame s).1.trans h
  recvPhase s _ h := (recvPhase_frame s).1.trans h
  timeoutPhase s _ h := (timeoutPhase_frame s).1.trans h
  termPhase _ _ _ h := h

/-- Settles O11: no operation writes the parameters. -/
theorem parametersNeverChange : Obligations.ParametersNeverChange :=
  fun s _ => (params_kept s.params).step rfl

/-- Settles O27: the ring's rules for the slot of a number. -/
theorem ringReadAfterWrite : Obligations.RingReadAfterWrite := by
  intro s k d
  have hslot : k % s.params.W < s.params.W := slotOf_lt s.params k
  refine ⟨?_, fun i hi => ?_, hslot, fun hwf => Orb.wf_write _ _ _ _ hwf hslot⟩
  · rw [State.ringRead_ringWrite, if_pos rfl]
  · rw [State.ringRead_ringWrite, if_neg hi]

/-! The modes (R13, R106, R127) -/

/-- How a command ends: it stays, faults, opens the session or ends it. -/
theorem exec_mode_cases {i : Instr} {s t : State} (ht : exec i s = .next t) :
    (t.mode = s.mode ∧ t.faultCode = s.faultCode) ∨
    (s.mode ≠ .faulted ∧ t.mode = .faulted ∧ t.faultCode ≠ .none ∧ t.faultCode ≠ .ringOverwrite) ∨
    (i = .openSession ∧ s.mode = .idle ∧ t.mode = .active ∧ t.faultCode = s.faultCode) ∨
    (s.mode = .active ∧ s.done = true ∧ t.mode = .terminated ∧ t.faultCode = s.faultCode) := by
  have hphase {u : State} (hm : s.mode = .active) (hst : s.beginCommand.StaysOrFaults u) :
      (u.mode = s.mode ∧ u.faultCode = s.faultCode) ∨
      (s.mode ≠ .faulted ∧ u.mode = .faulted ∧ u.faultCode ≠ .none ∧ u.faultCode ≠ .ringOverwrite) :=
    hst.imp_right fun hf => ⟨by simp [hm], hf⟩
  rcases exec_cases ht with rfl | ⟨c, hc, hc', hm, rfl⟩ | ⟨_, _, _, _, rfl⟩ | ⟨hi, hm, rfl⟩ | ⟨_, hm, hd, rfl⟩ |
    ⟨_, hm, rfl⟩ | ⟨_, hm, rfl⟩ | ⟨_, hm, rfl⟩ | ⟨rfl, hm, hd⟩
  · exact .inl ⟨rfl, rfl⟩
  · exact .inr (.inl ⟨hm, rfl, hc, hc'⟩)
  · exact .inl ⟨rfl, rfl⟩
  · rcases openPhase_cases s.beginCommand with ⟨_, he⟩ | ⟨_, he⟩ <;> rw [he]
    · exact .inr (.inr (.inl ⟨hi, hm, rfl, rfl⟩))
    · exact .inr (.inl ⟨by simp [hm], rfl, nofun, nofun⟩)
  · exact .inr (.inr (.inr ⟨hm, hd, rfl, rfl⟩))
  · exact (hphase hm (sendPhase_staysOrFaults _)).imp_right .inl
  · exact (hphase hm (recvPhase_staysOrFaults _)).imp_right .inl
  · exact (hphase hm (timeoutPhase_staysOrFaults _)).imp_right .inl
  · have hsent := sendPhase_staysOrFaults s.beginCommand
    rcases exec_tick_cases hm hd ht with hs | ⟨u, hs, hr⟩ | ⟨u, v, hs, hr, rfl⟩ <;> rw [hs] at hsent
    · exact (hphase hm hsent).imp_right .inl
    · have hreceived := recvPhase_staysOrFaults u
      rw [hr] at hreceived
      exact (hphase hm (hsent.trans hreceived)).imp_right .inl
    · have hreceived := recvPhase_staysOrFaults u
      rw [hr] at hreceived
      exact (hphase hm ((hsent.trans hreceived).trans (timeoutPhase_staysOrFaults v))).imp_right .inl

/-- How a command word ends, legal or not. -/
theorem execute_mode_cases {w : Byte} {s t : State} (ht : execute w s = .next t) :
    (t.mode = s.mode ∧ t.faultCode = s.faultCode) ∨
    (s.mode ≠ .faulted ∧ t.mode = .faulted ∧ t.faultCode ≠ .none ∧ t.faultCode ≠ .ringOverwrite) ∨
    (decode w = .ok .openSession ∧ s.mode = .idle ∧ t.mode = .active ∧ t.faultCode = s.faultCode) ∨
    (s.mode = .active ∧ s.done = true ∧ t.mode = .terminated ∧ t.faultCode = s.faultCode) := by
  cases hw : decode w with
  | ok i =>
    rw [execute_of_ok hw] at ht
    exact (exec_mode_cases ht).imp_right (.imp_right (.imp_left (.imp_left (congrArg _))))
  | error e =>
    rw [execute_of_error hw] at ht
    injection ht with ht
    subst ht
    rcases s.illegalCommand_cases with ⟨_, he⟩ | ⟨hm, he⟩ <;> rw [he]
    · exact .inl ⟨rfl, rfl⟩
    · exact .inr (.inl ⟨hm, rfl, nofun, nofun⟩)

/-- Settles O54, by the ends of a command word. -/
theorem onlyResetLeavesTheEndModes : Obligations.OnlyResetLeavesTheEndModes := by
  intro s t w ht
  rcases execute_mode_cases ht with ⟨hm, hc⟩ | ⟨hs, hm, _⟩ | ⟨hw, hs, hm, _⟩ | ⟨hs, _, hm, _⟩
  · exact ⟨fun h => hm ▸ h, fun h => .inl (hm ▸ h), fun h => .inl (hm.trans h), fun h => ⟨hm.trans h, hc⟩⟩
  · simp [hs, hm]
  · simp [hs, hm, hw]
  · simp [hs, hm]

/-- Settles O33: a word that leaves the code has it from before, and every other end has another code. -/
theorem ringOverwriteNeverRaised : Obligations.RingOverwriteNeverRaised := by
  intro s t ht hcode
  rcases step_input_cases ht with rfl | ⟨_, rfl⟩ | ⟨w, rest, hx⟩
  · exact hcode
  · cases hcode
  · rcases execute_mode_cases hx with ⟨_, hc⟩ | ⟨_, _, _, hc⟩ | ⟨_, _, _, hc⟩ | ⟨_, _, _, hc⟩
    · exact hc ▸ hcode
    · exact absurd hcode hc
    · exact hc ▸ hcode
    · exact hc ▸ hcode

/-- Settles O16: an ignored command and an illegal word only start; RDREG reads in every mode. -/
theorem faultedIgnoresAllButRdreg : Obligations.FaultedIgnoresAllButRdreg := by
  intro s hm
  refine ⟨fun i hi => ?_, fun n r hr => exec_rdreg_of_reg hr s, fun w e h => execute_illegal_of_faulted h hm⟩
  cases i with
  | rdreg n => exact absurd rfl (hi n)
  | _ => simp [exec_eq_commandFlow, commandFlow, State.whenActive, hm, State.beginCommand]

end Sys2Proof.Machine
end

section
/-! PROOFS. The send phase (41_send.md) and SEND: what a sent chunk leaves, the numbers it takes, and that nothing else
writes the ring or nextSeqNum. -/

namespace Sys2Proof.Machine

/-! The send phase on a given answer of the packetizer -/

theorem State.askChunk_eq {s : State} {c : Chunk} {e : Env} (h : s.env.askChunk = (c, e)) :
    s.askChunk = (c, { s with env := e }) := by
  rw [State.askChunk, h]

theorem sendPhase_of_chunk {s : State} {c : Chunk} {e : Env} (hf : s.filling = true) (hn : s.nextSeqNum ≠ 0xFFFF#16)
    (hc : s.env.askChunk = (c, e)) (hlen : c.bytes.length ≤ s.params.M) :
    sendPhase s = .go (transmitChunk c { s with env := e }) := by
  have hfits : ¬ ({ s with env := e } : State).params.M < c.bytes.length := Nat.not_lt.mpr hlen
  rw [sendPhase_checks hf hn, ← State.askChunk_fst, State.askChunk_eq hc, checkChunk, if_neg hfits]

theorem sendPhase_of_long_chunk {s : State} {c : Chunk} {e : Env} (hf : s.filling = true)
    (hn : s.nextSeqNum ≠ 0xFFFF#16) (hc : s.env.askChunk = (c, e)) (hlen : s.params.M < c.bytes.length) :
    sendPhase s = ({ s with env := e } : State).raiseFault .chunkLen := by
  have hlong : ({ s with env := e } : State).params.M < c.bytes.length := hlen
  rw [sendPhase_checks hf hn, ← State.askChunk_fst, State.askChunk_eq hc, checkChunk, if_pos hlong]

/-- A command that sends from an unfinished window, up to the end of its send phase. -/
theorem transmitChunk_beginCommand {s : State} (ha : s.allSent = false) (c : Chunk) (e : Env) :
    transmitChunk c { s.beginCommand with env := e } = { s with
      rdData := none, env := e
      events := .tx .new (frameData s.nextSeqNum c) :: if s.base = s.nextSeqNum then [.tmr .start] else []
      startedThisCmd := decide (s.base = s.nextSeqNum)
      timerArmed := decide (s.base = s.nextSeqNum) || s.timerArmed
      orb := s.orb.write (slotOf s.params s.nextSeqNum.toNat) (frameData s.nextSeqNum c)
      nextSeqNum := toU16 (s.nextSeqNum.toNat + 1)
      allSent := shortChunk s.params c } := by
  by_cases h : s.base = s.nextSeqNum <;> simp [transmitChunk_eq, State.beginCommand, ha, h]

theorem transmitChunk_ringRead (c : Chunk) (s : State) (i : Nat) :
    (transmitChunk c s).ringRead i =
      if i = slotOf s.params s.nextSeqNum.toNat then frameData s.nextSeqNum c else s.ringRead i := by
  rw [← State.ringRead_ringWrite, transmitChunk_eq]
  rfl

/-- Settles O29: in Filling the send phase transmits the chunk it asks for, else it returns at once. -/
theorem sendTransmitsOneDatagram : Obligations.SendTransmitsOneDatagram := by
  intro s hm
  refine ⟨fun c e hroom ha hn hc hlen => ?_, fun hf => ?_⟩
  · have hsend := sendPhase_of_chunk (s := s.beginCommand) (s.filling_iff.mpr ⟨hroom, ha⟩) hn hc hlen
    refine ⟨_, ?_, transmitChunk_beginCommand ha c e, transmitChunk_ringRead c { s.beginCommand with env := e }⟩
    rw [exec_send_of_active hm, hsend, Flow.state_go]
  · have hf' : s.beginCommand.filling = false := Bool.eq_false_iff.mpr fun h => hf (s.filling_iff.mp h)
    rw [exec_send_of_active hm, sendPhase_of_not_filling hf']
    rfl

/-- Settles O31. -/
theorem sendLongChunkFaults : Obligations.SendLongChunkFaults := by
  intro s c e hm hroom ha hn hc hlen
  have hsend := sendPhase_of_long_chunk (s := s.beginCommand) (s.filling_iff.mpr ⟨hroom, ha⟩) hn hc hlen
  rw [exec_send_of_active hm, hsend]
  rfl

/-! What a command does to nextSeqNum and the ring (R38, R72) -/

/-- From `s` to `t` no number is taken and the ring stays. -/
structure State.NumbersKept (s t : State) : Prop where
  newDatagrams : t.newDatagrams = s.newDatagrams
  nextSeqNum : t.nextSeqNum = s.nextSeqNum
  orb : t.orb = s.orb
  orbEpoch : t.orbEpoch = s.orbEpoch

/-- From `s` to `t` the chunk `c` was sent with the number nextSeqNum and stored in its slot. -/
structure State.TakesNumber (s t : State) (c : Chunk) : Prop where
  below : s.nextSeqNum ≠ 0xFFFF#16
  newDatagrams : t.newDatagrams = s.newDatagrams ++ [frameData s.nextSeqNum c]
  nextSeqNum : t.nextSeqNum.toNat = s.nextSeqNum.toNat + 1
  orb : t.orb = s.orb.write (slotOf s.params s.nextSeqNum.toNat) (frameData s.nextSeqNum c)
  orbEpoch : t.orbEpoch = s.orbEpoch

theorem State.NumbersKept.refl (s : State) : s.NumbersKept s := ⟨rfl, rfl, rfl, rfl⟩

theorem State.NumbersKept.trans {s t u : State} (h : s.NumbersKept t) (h' : t.NumbersKept u) : s.NumbersKept u where
  newDatagrams := h'.newDatagrams.trans h.newDatagrams
  nextSeqNum := h'.nextSeqNum.trans h.nextSeqNum
  orb := h'.orb.trans h.orb
  orbEpoch := h'.orbEpoch.trans h.orbEpoch

theorem State.TakesNumber.trans {s t u : State} {c : Chunk} (h : s.TakesNumber t c) (h' : t.NumbersKept u) :
    s.TakesNumber u c where
  below := h.below
  newDatagrams := h'.newDatagrams.trans h.newDatagrams
  nextSeqNum := h'.nextSeqNum ▸ h.nextSeqNum
  orb := h'.orb.trans h.orb
  orbEpoch := h'.orbEpoch.trans h.orbEpoch

theorem recvPhase_numbersKept (s : State) : s.NumbersKept (recvPhase s).state := by
  obtain ⟨_, hn, _, ho, _, _, he, htx⟩ := recvPhase_frame s
  exact ⟨State.newDatagrams_of_tx htx, hn, ho, he⟩

theorem timeoutPhase_numbersKept (s : State) : s.NumbersKept (timeoutPhase s).state := by
  obtain ⟨_, _, _, hn, _, _, _, ho, _, _, he⟩ := timeoutPhase_frame s
  exact ⟨timeoutPhase_newDatagrams s, hn, ho, he⟩

theorem Flow.andThen_numbersKept {g : State → Flow} (hg : ∀ u : State, u.NumbersKept (g u).state) (f : Flow) :
    f.state.NumbersKept (f.andThen g).state := by
  cases f with
  | go u => exact hg u
  | stop u => exact .refl u

theorem sendPhase_numbers (s : State) :
    (∃ c, s.TakesNumber (sendPhase s).state c) ∨ s.NumbersKept (sendPhase s).state := by
  rcases sendPhase_cases s with ⟨_, h⟩ | ⟨_, _, h⟩ | ⟨_, _, _, h⟩ | ⟨_, hn, _, h⟩ <;> rw [h]
  case inr.inr.inr =>
    refine .inl ⟨s.env.askChunk.1, hn, transmitChunk_newDatagrams _ _, ?_, ?_, ?_⟩ <;>
      simp [transmitChunk_eq, toNat_succ_of_ne hn]
  all_goals exact .inr ⟨rfl, rfl, rfl, rfl⟩

/-- A command sends nothing and leaves the ring, and the numbers too unless it is OPEN; or it is SEND or TICK and sends
one chunk. -/
theorem exec_numbers {i : Instr} {s t : State} (ht : exec i s = .next t) :
    (t.newDatagrams = [] ∧ t.orb = s.orb ∧ (i ≠ .openSession → t.nextSeqNum = s.nextSeqNum)) ∨
    ((i = .send ∨ i = .tick) ∧ ∃ c, s.beginCommand.TakesNumber t c) := by
  have hkept {u : State} (h : s.beginCommand.NumbersKept u) :
      u.newDatagrams = [] ∧ u.orb = s.orb ∧ (i ≠ .openSession → u.nextSeqNum = s.nextSeqNum) :=
    ⟨h.newDatagrams.trans s.beginCommand_newDatagrams, h.orb, fun _ => h.nextSeqNum⟩
  have hsent {u : State} (h : (sendPhase s.beginCommand).state.NumbersKept u) :
      (∃ c, s.beginCommand.TakesNumber u c) ∨ s.beginCommand.NumbersKept u :=
    (sendPhase_numbers s.beginCommand).imp (fun ⟨c, hc⟩ => ⟨c, hc.trans h⟩) (·.trans h)
  rcases exec_cases ht with rfl | ⟨_, _, _, _, rfl⟩ | ⟨_, _, _, _, rfl⟩ | ⟨rfl, _, rfl⟩ | ⟨_, _, _, rfl⟩ |
    ⟨rfl, _, rfl⟩ | ⟨_, _, rfl⟩ | ⟨_, _, rfl⟩ | ⟨rfl, hm, hd⟩
  · exact .inl (hkept (.refl _))
  · exact .inl (hkept ⟨rfl, rfl, rfl, rfl⟩)
  · exact .inl (hkept ⟨rfl, rfl, rfl, rfl⟩)
  · refine .inl ⟨(State.newDatagrams_of_tx (openPhase_tx _)).trans s.beginCommand_newDatagrams, ?_, nofun⟩
    rcases openPhase_cases s.beginCommand with ⟨_, he⟩ | ⟨_, he⟩ <;> rw [he] <;> rfl
  · exact .inl (hkept ⟨termPhase_newDatagrams _, rfl, rfl, rfl⟩)
  · rcases hsent (.refl _) with h | h
    · exact .inr ⟨.inl rfl, h⟩
    · exact .inl (hkept h)
  · exact .inl (hkept (recvPhase_numbersKept _))
  · exact .inl (hkept (timeoutPhase_numbersKept _))
  · rw [exec_tick_of_active hm hd] at ht
    injection ht with ht
    have hrecv := Flow.andThen_numbersKept recvPhase_numbersKept (sendPhase s.beginCommand)
    have htimeout := Flow.andThen_numbersKept timeoutPhase_numbersKept ((sendPhase s.beginCommand).andThen recvPhase)
    rcases hsent (ht ▸ hrecv.trans htimeout) with h | h
    · exact .inr ⟨.inr rfl, h⟩
    · exact .inl (hkept h)

theorem State.TakesNumber.eq_of_mem {s t : State} {c : Chunk} {d : Datagram} (h : s.beginCommand.TakesNumber t c)
    (hd : .tx .new d ∈ t.events) : d = frameData s.nextSeqNum c := by
  rw [← State.mem_newDatagrams, h.newDatagrams, State.beginCommand_newDatagrams] at hd
  exact List.mem_singleton.mp hd

theorem State.TakesNumber.mem_events {s t : State} {c : Chunk} (h : s.beginCommand.TakesNumber t c) :
    .tx .new (frameData s.nextSeqNum c) ∈ t.events :=
  State.mem_newDatagrams.mp (h.newDatagrams ▸ List.mem_concat_self)

/-- SEND and TICK at the last number, in Filling. -/
theorem exec_at_limit {i : Instr} (hi : i = .send ∨ i = .tick) {s : State} (hm : s.mode = .active)
    (hf : s.filling = true) (hn : s.nextSeqNum = 0xFFFF#16) :
    exec i s = .next (s.beginCommand.enterFault .seqOverflow) := by
  have hsend : sendPhase s.beginCommand = s.beginCommand.raiseFault .seqOverflow := sendPhase_at_limit hf hn
  have hd : s.done = false := by simp [State.done, (s.filling_iff.mp hf).2]
  rcases hi with rfl | rfl
  · rw [exec_send_of_active hm, hsend, State.raiseFault_state]
  · rw [exec_tick_of_active hm hd, hsend]
    rfl

/-- Settles O30: the send phase tests the number before it takes it, and nothing else in a session writes it. -/
theorem sequenceNumbersNeverWrap : Obligations.SequenceNumbersNeverWrap := by
  refine ⟨fun i s hi hm hroom ha hn => exec_at_limit hi hm (s.filling_iff.mpr ⟨hroom, ha⟩) hn,
    fun i s t d ht hd => ?_, fun i s t hi ht hnone => ?_⟩ <;> rcases exec_numbers ht with ⟨hnew, _, hnext⟩ | ⟨_, c, hc⟩
  · have hmem := State.mem_newDatagrams.mpr hd
    simp [hnew] at hmem
  · obtain rfl := hc.eq_of_mem hd
    have hlast : s.nextSeqNum.toNat ≠ 0xFFFF := fun h => hc.below (BitVec.eq_of_toNat_eq h)
    have hlt := s.nextSeqNum.isLt
    refine ⟨rfl, ?_, hc.nextSeqNum⟩
    simp only [frameData]
    omega
  · exact hnext hi
  · exact absurd hc.mem_events (hnone _)

/-- Settles O57: what changes the ring has taken a number, and stored its datagram in that slot alone. -/
theorem onlySendPhaseWritesRing : Obligations.OnlySendPhaseWritesRing := by
  intro i s t ht hring
  rcases exec_numbers ht with ⟨_, ho, _⟩ | ⟨hi, c, hc⟩
  · exact absurd ho hring
  · refine ⟨hi, _, hc.mem_events, hc.orb, fun j hj => ?_⟩
    have hslot : j ≠ slotOf s.beginCommand.params s.beginCommand.nextSeqNum.toNat := hj
    rw [State.ringRead, hc.orb, hc.orbEpoch, Orb.read?_write_other _ _ hslot]
    rfl

end Sys2Proof.Machine
end

section
/-! PROOFS. The receive phase (42_ack_receive.md) and RECV on a given answer of the transport, and two ACKs in a
row (R132). -/

namespace Sys2Proof.Machine

theorem State.askRx_eq {s : State} {a : Option Datagram} {e : Env} (h : s.env.askRx = (a, e)) :
    s.askRx = (a, { s with env := e }) := by
  rw [State.askRx, h]

/-- The state after a valid ACK of the number `a` inside the window was taken, the answers to come being `e`. -/
def State.advanced (s : State) (e : Env) (a : U16) : State :=
  retimeAfterAck { s with env := e, base := toU16 (a.toNat + 1) }

theorem recvPhase_of_ack {s : State} {r : Datagram} {e : Env} (hr : s.env.askRx = (some r, e))
    (hv : ackValid r = true) (hb : s.base.toNat ≤ r.ackNum.toNat) (hn : r.ackNum.toNat < s.nextSeqNum.toNat) :
    recvPhase s = .go (s.advanced e r.ackNum) := by
  rw [recvPhase_advance (by rw [hr]) hv hb hn, State.askRx_eq hr]
  rfl

theorem recvPhase_of_drop {s : State} {a : Option Datagram} {e : Env} (hr : s.env.askRx = (a, e))
    (h : ∀ r, a = some r → ackValid r = false ∨ r.ackNum.toNat < s.base.toNat) :
    recvPhase s = .go { s with env := e } := by
  rw [recvPhase_drop (by rw [hr]; exact h), State.askRx_eq hr]

theorem recvPhase_of_unsent {s : State} {r : Datagram} {e : Env} (hr : s.env.askRx = (some r, e))
    (hv : ackValid r = true) (hb : s.base.toNat ≤ r.ackNum.toNat) (hn : s.nextSeqNum.toNat ≤ r.ackNum.toNat) :
    recvPhase s = ({ s with env := e } : State).raiseFault .ackRange := by
  have hfst : s.env.askRx.1 = some r := by rw [hr]
  rcases recvPhase_cases s with ⟨h, _⟩ | ⟨q, h, hdrop, _⟩ | ⟨_, _, _, _, _, h⟩ | ⟨q, h, _, _, hlt, _⟩
  · simp [hfst] at h
  · obtain rfl : r = q := Option.some.inj (hfst.symm.trans h)
    rcases hdrop with h' | h'
    · simp [hv] at h'
    · omega
  · rw [h, State.askRx_eq hr]
  · obtain rfl : r = q := Option.some.inj (hfst.symm.trans h)
    omega

/-- The new base is one past the ACK's number, and the timer follows it (R78, R81). -/
theorem State.advanced_eq {s : State} {e : Env} {a : U16} (hn : a.toNat < s.nextSeqNum.toNat) :
    s.advanced e a = { s with
      env := e, base := toU16 (a.toNat + 1)
      events := s.events ++ [.tmr (if a.toNat + 1 = s.nextSeqNum.toNat then .stop else .start)]
      timerArmed := decide (a.toNat + 1 ≠ s.nextSeqNum.toNat)
      startedThisCmd := if a.toNat + 1 = s.nextSeqNum.toNat then s.startedThisCmd else true } := by
  have hbase : toU16 (a.toNat + 1) = s.nextSeqNum ↔ a.toNat + 1 = s.nextSeqNum.toNat := by
    rw [BitVec.toNat_eq, toNat_ackNum_succ hn]
  simp [State.advanced, retimeAfterAck_eq, hbase]

theorem State.advanced_base_toNat {s : State} {e : Env} {a : U16} (hn : a.toNat < s.nextSeqNum.toNat) :
    (s.advanced e a).base.toNat = a.toNat + 1 := by
  rw [State.advanced_eq hn]
  exact toNat_ackNum_succ hn

/-- Settles O34. -/
theorem recvAdvancesBase : Obligations.RecvAdvancesBase := by
  intro s r e hm hr hv hb hn
  have hrecv := recvPhase_of_ack (s := s.beginCommand) hr ((ackValid_iff r).mpr hv) hb hn
  have hn' : r.ackNum.toNat < s.beginCommand.nextSeqNum.toNat := hn
  refine ⟨s.beginCommand.advanced e r.ackNum, ?_, State.advanced_base_toNat hn', ?_⟩
  · rw [exec_recv_of_active hm, hrecv, Flow.state_go]
  · rw [State.advanced_eq hn']
    by_cases h : r.ackNum.toNat + 1 = s.nextSeqNum.toNat <;> simp [State.beginCommand, h]

/-- Settles O35. -/
theorem recvDiscardsInvalidAndStale : Obligations.RecvDiscardsInvalidAndStale := by
  intro s a e hm hr hdrop
  have hdrop' : ∀ r, a = some r → ackValid r = false ∨ r.ackNum.toNat < s.beginCommand.base.toNat :=
    fun r h => (hdrop r h).imp_left (ackValid_eq_false_iff r).mpr
  rw [exec_recv_of_active hm, recvPhase_of_drop (s := s.beginCommand) hr hdrop']
  rfl

/-- Settles O36. -/
theorem recvAckBeyondWindowFaults : Obligations.RecvAckBeyondWindowFaults := by
  intro s r e hm hr hv hb hn
  have hrecv := recvPhase_of_unsent (s := s.beginCommand) hr ((ackValid_iff r).mpr hv) hb hn
  rw [exec_recv_of_active hm, hrecv]
  rfl

/-! Two ACKs in a row -/

theorem State.withRx_env_askRx (s : State) (a : Option Datagram) (rest : List (Option Datagram)) :
    (s.withRx (a :: rest)).env.askRx = (a, (s.withRx rest).env) := rfl

/-- RECV of a valid ACK of a number that was sent: it is stale, or inside the window and advances. -/
theorem exec_recv_ack {s t : State} {r : Datagram} {e : Env} (hm : s.mode = .active)
    (hr : s.env.askRx = (some r, e)) (hv : ackValid r = true) (hn : r.ackNum.toNat < s.nextSeqNum.toNat)
    (ht : exec .recv s = .next t) :
    (r.ackNum.toNat < s.base.toNat ∧ t = { s.beginCommand with env := e }) ∨
    (s.base.toNat ≤ r.ackNum.toNat ∧ t = s.beginCommand.advanced e r.ackNum) := by
  rw [exec_recv_of_active hm] at ht
  injection ht with ht
  rcases Nat.lt_or_ge r.ackNum.toNat s.base.toNat with hb | hb
  · rw [recvPhase_of_drop (s := s.beginCommand) hr (fun q hq => .inr (Option.some.inj hq ▸ hb))] at ht
    exact .inl ⟨hb, ht.symm⟩
  · rw [recvPhase_of_ack (s := s.beginCommand) hr hv hb hn] at ht
    exact .inr ⟨hb, ht.symm⟩

/-- Settles O38: each ACK is stale or moves the base past its number, so the second decides unless both have the same
number, and then the first has done what the second alone does. -/
theorem newestAckAloneGivesSameWindow : Obligations.NewestAckAloneGivesSameWindow := by
  intro s t u v r q rest hm hr hq hle hn ht hu hv
  have hnr : r.ackNum.toNat < s.nextSeqNum.toNat := by omega
  have hnr' : r.ackNum.toNat < (s.withRx (some r :: some q :: rest)).beginCommand.nextSeqNum.toNat := hnr
  have hnv : q.ackNum.toNat < (s.withRx (some q :: rest)).beginCommand.nextSeqNum.toNat := hn
  have hv' := exec_recv_ack (s := s.withRx (some q :: rest)) hm (State.withRx_env_askRx s _ _) hq hn hv
  rcases exec_recv_ack (s := s.withRx (some r :: some q :: rest)) hm (State.withRx_env_askRx s _ _) hr hnr ht with
    ⟨hbr, rfl⟩ | ⟨hbr, rfl⟩
  · rcases exec_recv_ack (by exact hm) rfl hq (by exact hn) hu with ⟨hb, rfl⟩ | ⟨hb, rfl⟩ <;>
      rcases hv' with ⟨hb', rfl⟩ | ⟨hb', rfl⟩
    · rfl
    · exact absurd hb (Nat.not_lt.mpr hb')
    · exact absurd hb' (Nat.not_lt.mpr hb)
    · rfl
  · have hbase := State.advanced_base_toNat (e := (s.withRx (some q :: rest)).env) hnr'
    rw [State.advanced_eq hnr'] at hu hbase
    have hnu : q.ackNum.toNat < s.nextSeqNum.toNat := hn
    rcases hv' with ⟨hb', _⟩ | ⟨_, rfl⟩
    · have : q.ackNum.toNat < s.base.toNat := hb'
      have : s.base.toNat ≤ r.ackNum.toNat := hbr
      omega
    rcases exec_recv_ack (by exact hm) rfl hq (by exact hn) hu with ⟨hb, rfl⟩ | ⟨hb, rfl⟩
    · rw [hbase] at hb
      have heq : r.ackNum = q.ackNum := BitVec.eq_of_toNat_eq (by omega)
      rw [State.advanced_eq hnv, heq]
      rfl
    · rw [State.advanced_eq hnv, State.advanced_eq (by exact hn)]
      rfl

end Sys2Proof.Machine
end

section
/-! PROOFS. The timeout phase (43_timeout_retransmit.md) and TMO, and TICK (44_session_control.md) on given answers:
what a gate that is closed, or an expiry, makes of the phases before it. -/

namespace Sys2Proof.Machine

/-! The timeout phase by its gate (R84, R85) -/

theorem timeoutPhase_of_closed {s : State} (h : s.timerArmed = false ∨ s.startedThisCmd = true) :
    timeoutPhase s = .go s := by
  rcases timeoutPhase_cases s with ⟨_, he⟩ | ⟨ha, hs, _, _⟩ | ⟨ha, hs, _, _⟩
  · exact he
  all_goals simp [ha, hs] at h

theorem timeoutPhase_of_answer {s : State} {b : Bool} {e : Env} (ha : s.timerArmed = true)
    (hs : s.startedThisCmd = false) (hx : s.env.askExpired = (b, e)) :
    timeoutPhase s = .go (if b then retransmitWindow { s with env := e } else { s with env := e }) := by
  have hgate : s.expiredEff = (b, { s with env := e }) := by
    simp [State.expiredEff, ha, hs, State.askExpired, hx]
  rw [timeoutPhase, hgate]
  cases b <;> rfl

theorem exec_tmo_of_disarmed {s : State} (hm : s.mode = .active) (ha : s.timerArmed = false) :
    exec .tmo s = .next s.beginCommand := by
  rw [exec_tmo_of_active hm, timeoutPhase_of_closed (s := s.beginCommand) (.inl ha), Flow.state_go]

/-- Settles O40: the three ways of the gate at the start of a command. -/
theorem tmoResendsWindowOnExpiryOnly : Obligations.TmoResendsWindowOnExpiryOnly := by
  intro s hm
  refine ⟨fun e ha hx => exec_tmo_of_expiry hm ha hx, exec_tmo_of_disarmed hm, fun e ha hx => ?_⟩
  rw [exec_tmo_of_active hm, timeoutPhase_of_answer (s := s.beginCommand) ha rfl hx]
  rfl

/-- Settles O42: the timeout phase leaves what it resends from, and answers the same list to the same window. -/
theorem timeoutIsIdempotent : Obligations.TimeoutIsIdempotent := by
  refine ⟨fun s t hm ht => ?_, fun s t u q hm hq ht hu => ?_⟩
  · rw [exec_tmo_of_active hm] at ht
    injection ht with ht
    obtain ⟨_, _, hb, hn, hall, _, _, ho, _⟩ := timeoutPhase_frame s.beginCommand
    exact ht ▸ ⟨hb, hn, hall, ho⟩
  · cases ha : s.timerArmed with
    | false =>
      obtain rfl := exec_inj ht (exec_tmo_of_disarmed hm ha)
      obtain rfl := exec_inj hu (exec_tmo_of_disarmed hm ha)
      exact ⟨rfl, rfl, rfl, rfl, rfl, ha⟩
    | true =>
      have hx : s.env.askExpired = (true, { s.env with tmrExpired := true :: q }) := by simp [Env.askExpired, hq]
      obtain rfl := exec_inj ht (exec_tmo_of_expiry hm ha hx)
      obtain rfl := exec_inj hu (exec_tmo_of_expiry hm rfl rfl)
      exact ⟨rfl, rfl, rfl, rfl, rfl, rfl⟩

/-! TICK by the ends of its phases (R95, R107) -/

theorem exec_tick_of_returns {s u v : State} (hm : s.mode = .active) (hd : s.done = false)
    (hs : sendPhase s.beginCommand = .go u) (hr : recvPhase u = .go v) :
    exec .tick s = .next (timeoutPhase v).state := by
  rw [exec_tick_of_active hm hd, hs, Flow.go_andThen, hr, Flow.go_andThen]

theorem exec_tick_of_recv_stop {s u v : State} (hm : s.mode = .active) (hd : s.done = false)
    (hs : sendPhase s.beginCommand = .go u) (hr : recvPhase u = .stop v) : exec .tick s = .next v := by
  rw [exec_tick_of_active hm hd, hs, Flow.go_andThen, hr, Flow.stop_andThen, Flow.state_stop]

theorem exec_tick_of_send_stop {s u : State} (hm : s.mode = .active) (hd : s.done = false)
    (hs : sendPhase s.beginCommand = .stop u) : exec .tick s = .next u := by
  rw [exec_tick_of_active hm hd, hs, Flow.stop_andThen, Flow.stop_andThen, Flow.state_stop]

theorem State.done_of_not_allSent {s : State} (h : s.allSent = false) : s.done = false := by
  simp [State.done, h]

theorem State.done_eq_false_iff (s : State) : s.done = false ↔ ¬ (s.allSent = true ∧ s.base = s.nextSeqNum) := by
  rw [← s.done_iff, Bool.not_eq_true]

/-- Settles O18: in Done the terminal phase is all of the TICK. -/
theorem tickInDoneSendsTerminalDatagram : Obligations.TickInDoneSendsTerminalDatagram :=
  fun s hm ha hb => ⟨_, exec_tick_of_done hm (s.done_iff.mpr ⟨ha, hb⟩), rfl, rfl⟩

/-- The send phase from the framing on reads no answer and leaves those to come. -/
theorem transmitChunk_with_env (c : Chunk) (s : State) (e : Env) :
    ({ transmitChunk c s with env := e } : State) = transmitChunk c { s with env := e } := by
  simp only [transmitChunk_eq]

/-- A TICK that sends a chunk and receives nothing, up to its timeout phase. -/
theorem exec_tick_of_chunk {s : State} {c : Chunk} {e f : Env} (hm : s.mode = .active) (hf : s.filling = true)
    (hn : s.nextSeqNum ≠ 0xFFFF#16) (hc : s.env.askChunk = (c, e)) (hlen : c.bytes.length ≤ s.params.M)
    (hrx : e.askRx = (none, f)) :
    exec .tick s = .next (timeoutPhase (transmitChunk c { s.beginCommand with env := f })).state := by
  have hsend := sendPhase_of_chunk (s := s.beginCommand) hf hn hc hlen
  have hrecv : recvPhase (transmitChunk c { s.beginCommand with env := e }) =
      .go (transmitChunk c { s.beginCommand with env := f }) := by
    rw [← transmitChunk_with_env, recvPhase_of_drop (a := none) (e := f) hrx (fun _ h => nomatch h),
      transmitChunk_with_env]
  exact exec_tick_of_returns hm (State.done_of_not_allSent (s.filling_iff.mp hf).2) hsend hrecv

/-- Settles O44: the send phase's START closes the gate. -/
theorem tickFirstSendMasksExpiry : Obligations.TickFirstSendMasksExpiry := by
  intro s c e f hm hb ha hn hc hlen hrx
  have hroom : s.nextSeqNum.toNat < s.base.toNat + s.params.W := by
    have := s.params.W_bounds.1
    rw [hb]
    omega
  rw [exec_tick_of_chunk hm (s.filling_iff.mpr ⟨hroom, ha⟩) hn hc hlen hrx, transmitChunk_beginCommand ha]
  simp only [hb, if_true, decide_true, Bool.true_or]
  rw [timeoutPhase_of_closed (.inr rfl)]
  rfl

/-- A window of which the last number is not the first: its copies are the older ones, and then the chunk just sent. -/
theorem transmitChunk_retransmissions {c : Chunk} {s : State} (hle : s.base.toNat ≤ s.nextSeqNum.toNat)
    (hroom : s.nextSeqNum.toNat < s.base.toNat + s.params.W) (hn : s.nextSeqNum ≠ 0xFFFF#16) :
    retransmissions (transmitChunk c s) = retransmissions s ++ [.tx .retx (frameData s.nextSeqNum c)] := by
  have hout : (transmitChunk c s).outstanding = s.outstanding + 1 := by
    simp only [State.outstanding, transmitChunk_eq, toNat_succ_of_ne hn]
    omega
  have hparams : (transmitChunk c s).params = s.params := by rw [transmitChunk_eq]
  have hbase : (transmitChunk c s).base = s.base := by rw [transmitChunk_eq]
  have hlast : s.base.toNat + s.outstanding = s.nextSeqNum.toNat := by
    simp only [State.outstanding]
    omega
  rw [retransmissions, hout, hparams, hbase, List.range_succ, List.map_append, List.map_singleton,
    transmitChunk_ringRead, hlast, if_pos rfl, retransmissions]
  refine congrArg (· ++ _) (List.map_congr_left fun j hj => ?_)
  have hold : s.base.toNat + j < s.nextSeqNum.toNat := by
    have := List.mem_range.mp hj
    omega
  rw [transmitChunk_ringRead, if_neg (slotOf_ne s.params hold (by omega))]

/-- Settles O45: the send phase gives no START when datagrams are outstanding, so the gate asks, and the window that is
resent has the fresh datagram as its last. -/
theorem tickResendsFreshDatagram : Obligations.TickResendsFreshDatagram := by
  intro s c e f g hm harmed hlt hroom ha hn hc hlen hrx hx
  have hopen : s.base ≠ s.nextSeqNum := fun h => absurd (congrArg BitVec.toNat h) hlt.ne
  have hresent := transmitChunk_retransmissions (c := c) (s := { s.beginCommand with env := g }) hlt.le hroom hn
  have hsent (e : Env) := transmitChunk_beginCommand ha c e
  simp only [hopen, if_false, decide_false, Bool.false_or] at hsent
  rw [exec_tick_of_chunk hm (s.filling_iff.mpr ⟨hroom, ha⟩) hn hc hlen hrx, hsent,
    timeoutPhase_of_answer (by exact harmed) rfl hx]
  rw [hsent] at hresent
  simp only [Flow.state_go, if_true, retransmitWindow_eq, hresent]
  simp [retransmissions, State.beginCommand, State.outstanding, slotOf, frameData, toU16, shortChunk,
    State.ringRead]

/-- After an advance the gate is closed: the timer was restarted in this command, or stopped (R81, R84). -/
theorem State.advanced_gate_closed (s : State) (e : Env) (a : U16) :
    (s.advanced e a).timerArmed = false ∨ (s.advanced e a).startedThisCmd = true := by
  rw [State.advanced, retimeAfterAck]
  split
  · exact .inl rfl
  · exact .inr rfl

/-- Settles O46: outside Filling the send phase does nothing, and an advance closes the gate. -/
theorem tickAfterAckMasksExpiry : Obligations.TickAfterAckMasksExpiry := by
  intro s r e hm hf hd hr hv hb hn
  have hsend : sendPhase s.beginCommand = .go s.beginCommand :=
    sendPhase_of_not_filling (Bool.eq_false_iff.mpr fun h => hf (s.filling_iff.mp h))
  have hrecv := recvPhase_of_ack (s := s.beginCommand) hr hv hb hn
  have htick : exec .tick s = .next (s.beginCommand.advanced e r.ackNum) := by
    rw [exec_tick_of_returns hm (s.done_eq_false_iff.mpr hd) hsend hrecv,
      timeoutPhase_of_closed (State.advanced_gate_closed _ _ _), Flow.state_go]
  refine ⟨?_, _, htick, State.advanced_base_toNat (s := s.beginCommand) hn⟩
  rw [htick, exec_recv_of_active hm, hrecv, Flow.state_go]

/-! Faults of the phases -/

theorem sendPhase_stop_mode {s u : State} (h : sendPhase s = .stop u) : u.mode = .faulted := by
  rcases sendPhase_cases s with ⟨_, h'⟩ | ⟨_, _, h'⟩ | ⟨_, _, _, h'⟩ | ⟨_, _, _, h'⟩ <;> rw [h'] at h <;>
    cases h <;> rfl

theorem recvPhase_stop_mode {s u : State} (h : recvPhase s = .stop u) : u.mode = .faulted := by
  rcases recvPhase_cases s with ⟨_, h'⟩ | ⟨_, _, _, h'⟩ | ⟨_, _, _, _, _, h'⟩ | ⟨_, _, _, _, _, h'⟩ <;>
    rw [h'] at h <;> cases h
  rfl

/-- Settles O47: the receive phase starts from the state that the send phase, and so SEND, leaves. -/
theorem tickKeepsSendOnAckRangeFault : Obligations.TickKeepsSendOnAckRangeFault := by
  intro s t r e hm ha ht hmt hr hv hb hn
  have hd := State.done_of_not_allSent ha
  rw [exec_send_of_active hm] at ht
  injection ht with ht
  cases hs : sendPhase s.beginCommand with
  | stop u =>
    rw [hs, Flow.state_stop] at ht
    have hfault := sendPhase_stop_mode hs
    simp [ht, hmt] at hfault
  | go u =>
    obtain rfl : u = t := by rwa [hs] at ht
    exact exec_tick_of_recv_stop hm hd hs (recvPhase_of_unsent hr hv hb hn)

end Sys2Proof.Machine
end

section
/-! PROOFS. One TICK against SEND, RECV and TMO in a row (70_reset_and_hazards.md rule R143), and the order of a TICK's
outputs (R135). -/

namespace Sys2Proof.Machine

/-! A phase run later in its command -/

/-- `u`, the end of a phase that started a command, as the end of the same phase run in a command after `s`: the outputs
are appended, and a START given before is remembered. -/
def State.inCommandAfter (u s : State) : State :=
  { u with
    events := s.events ++ u.events
    startedThisCmd := s.startedThisCmd || u.startedThisCmd
    rdData := s.rdData }

def Flow.inCommandAfter (s : State) : Flow → Flow
  | .go u => .go (u.inCommandAfter s)
  | .stop u => .stop (u.inCommandAfter s)

/-- The receive phase does in a TICK what it does in RECV (R77). -/
theorem recvPhase_inCommandAfter (s : State) : recvPhase s = (recvPhase s.beginCommand).inCommandAfter s := by
  have hkept : ({ s.beginCommand with env := s.env.askRx.2 } : State).inCommandAfter s = s.askRx.2 := by
    simp [State.inCommandAfter, State.askRx, State.beginCommand]
  have hrx : s.env.askRx = (s.env.askRx.1, s.env.askRx.2) := rfl
  rcases recvPhase_cases s with ⟨h, he⟩ | ⟨r, h, hdrop, he⟩ | ⟨r, h, hv, hb, hn, he⟩ | ⟨r, h, hv, hb, hn, he⟩ <;>
    rw [h] at hrx
  · rw [he, recvPhase_of_drop (s := s.beginCommand) hrx nofun, Flow.inCommandAfter, hkept]
  · have hdrop' : ∀ q, some r = some q → discards s q := fun q hq => Option.some.inj hq ▸ hdrop
    rw [he, recvPhase_of_drop (s := s.beginCommand) hrx hdrop', Flow.inCommandAfter, hkept]
  · rw [he, recvPhase_of_unsent (s := s.beginCommand) hrx hv hb hn, ← hkept]
    rfl
  · rw [recvPhase_of_ack hrx hv hb hn, recvPhase_of_ack (s := s.beginCommand) hrx hv hb hn, Flow.inCommandAfter,
      State.advanced_eq hn, State.advanced_eq (s := s.beginCommand) hn]
    by_cases hlast : r.ackNum.toNat + 1 = s.nextSeqNum.toNat <;>
      simp [State.inCommandAfter, State.beginCommand, hlast]

/-! startedThisCmd says whether a START was given (R19) -/

/-- The flag and the outputs of the command so far agree; a STOP leaves the flag (R83). -/
def State.StartedExact (s : State) : Prop := s.startedThisCmd = true ↔ .tmr .start ∈ s.events

theorem sendPhase_startedExact {s : State} (h : s.StartedExact) : (sendPhase s).state.StartedExact := by
  rcases sendPhase_cases s with ⟨_, he⟩ | ⟨_, _, he⟩ | ⟨_, _, _, he⟩ | ⟨_, _, _, he⟩ <;> rw [he]
  case inr.inr.inr =>
    unfold State.StartedExact at h
    by_cases hb : s.base = s.nextSeqNum <;> simp [State.StartedExact, transmitChunk_eq, hb, h]
  all_goals exact h

theorem recvPhase_startedExact {s : State} (h : s.StartedExact) : (recvPhase s).state.StartedExact := by
  rcases recvPhase_cases s with ⟨_, he⟩ | ⟨_, _, _, he⟩ | ⟨_, _, _, _, _, he⟩ | ⟨r, _, _, _, _, he⟩ <;> rw [he]
  case inr.inr.inr =>
    unfold State.StartedExact at h
    by_cases hb : toU16 (r.ackNum.toNat + 1) = s.nextSeqNum <;> simp [State.StartedExact, retimeAfterAck_eq, hb, h]
  all_goals exact h

theorem State.beginCommand_startedExact (s : State) : s.beginCommand.StartedExact := by
  simp [State.StartedExact]

/-! Commands after a fault (R101) -/

theorem exec_recv_of_faulted {s : State} (h : s.mode = .faulted) : exec .recv s = .next s.beginCommand := by
  simp [exec, execRecv, State.whenActive, h]

theorem exec_tmo_of_faulted {s : State} (h : s.mode = .faulted) : exec .tmo s = .next s.beginCommand := by
  simp [exec, execTmo, State.whenActive, h]

/-! The comparison -/

/-- What R143 compares: the mode, the window, the timer, the code, the ring, and the outputs against `l`. -/
def State.AgreesWith (x v : State) (l : List PortEvent) : Prop :=
  x.mode = v.mode ∧ x.base = v.base ∧ x.nextSeqNum = v.nextSeqNum ∧ x.allSent = v.allSent ∧
    x.timerArmed = v.timerArmed ∧ x.faultCode = v.faultCode ∧ x.orb = v.orb ∧ x.events = l

/-- A TICK and the three commands agree when their timeout phases, run on the same window `u`, do: the gate of the TMO
is open, that of the TICK closed by a START of the TICK. -/
theorem timeoutPhase_agrees_iff {t u : State} (ht : t.StartedExact) (hu : u.StartedExact) :
    (timeoutPhase (u.inCommandAfter t)).state.AgreesWith (timeoutPhase u.beginCommand).state
        (t.events ++ u.events ++ (timeoutPhase u.beginCommand).state.events) ↔
      ((timeoutPhase u.beginCommand).state.events = [] ∨ .tmr .start ∉ t.events ++ u.events) := by
  have hstart : (u.inCommandAfter t).startedThisCmd = true ↔ .tmr .start ∈ t.events ++ u.events := by
    unfold State.StartedExact at ht hu
    simp [State.inCommandAfter, ht, hu]
  cases ha : u.timerArmed with
  | false =>
    rw [timeoutPhase_of_closed (s := u.beginCommand) (.inl ha),
      timeoutPhase_of_closed (s := u.inCommandAfter t) (.inl ha)]
    simp [State.AgreesWith, State.inCommandAfter]
  | true =>
    have htmo := timeoutPhase_of_answer (s := u.beginCommand) (b := u.env.askExpired.1) ha rfl rfl
    cases hstarted : (u.inCommandAfter t).startedThisCmd with
    | true =>
      rw [timeoutPhase_of_closed (.inr hstarted), htmo]
      have hmem := hstart.mp hstarted
      cases u.env.askExpired.1 <;> simp [State.AgreesWith, State.inCommandAfter, retransmitWindow_eq, hmem, ha]
    | false =>
      rw [timeoutPhase_of_answer (s := u.inCommandAfter t) (b := u.env.askExpired.1) ha hstarted rfl, htmo]
      have hmem : .tmr .start ∉ t.events ++ u.events := fun h => by simp [hstart.mpr h] at hstarted
      cases u.env.askExpired.1 with
      | false => simp [State.AgreesWith, State.inCommandAfter]
      | true =>
        have hsame : retransmissions (u.inCommandAfter t) = retransmissions u := rfl
        refine iff_of_true ⟨rfl, rfl, rfl, rfl, rfl, rfl, rfl, ?_⟩ (.inr hmem)
        show t.events ++ u.events ++ retransmissions u ++ [PortEvent.tmr .start] =
          t.events ++ u.events ++ ([] ++ retransmissions u ++ [.tmr .start])
        simp

/-- Settles O48: a fault ends the TICK and silences the commands after it; without one, the receive phase does the same
in both, and the timeout phases differ by the gate alone. -/
theorem tickAgreesWithPhaseCommands : Obligations.TickAgreesWithPhaseCommands := by
  intro s t u v x hm hd hsend hrecv htmo htick
  have hdone := s.done_eq_false_iff.mpr hd
  have ht := exec_inj hsend (exec_send_of_active hm)
  have hexact := sendPhase_startedExact s.beginCommand_startedExact
  cases hs : sendPhase s.beginCommand with
  | stop w =>
    obtain rfl : t = w := by rw [ht, hs, Flow.state_stop]
    have hfault := sendPhase_stop_mode hs
    obtain rfl := exec_inj hrecv (exec_recv_of_faulted hfault)
    obtain rfl := exec_inj htmo (exec_tmo_of_faulted hfault)
    obtain rfl := exec_inj htick (exec_tick_of_send_stop hm hdone hs)
    exact iff_of_true ⟨rfl, rfl, rfl, rfl, rfl, rfl, rfl, by simp⟩ (.inl rfl)
  | go w =>
    obtain rfl : t = w := by rw [ht, hs, Flow.state_go]
    have hmt : t.mode = .active := (sendPhase_go_mode hs).trans hm
    rw [hs] at hexact
    have hu := exec_inj hrecv (exec_recv_of_active hmt)
    have hrx := recvPhase_inCommandAfter t
    cases hr : recvPhase t.beginCommand with
    | stop w =>
      obtain rfl : u = w := by rw [hu, hr, Flow.state_stop]
      rw [hr] at hrx
      obtain rfl := exec_inj htick (exec_tick_of_recv_stop hm hdone hs hrx)
      obtain rfl := exec_inj htmo (exec_tmo_of_faulted (recvPhase_stop_mode hr))
      exact iff_of_true ⟨rfl, rfl, rfl, rfl, rfl, rfl, rfl, (List.append_nil _).symm⟩ (.inl rfl)
    | go w =>
      obtain rfl : u = w := by rw [hu, hr, Flow.state_go]
      have hexact' := recvPhase_startedExact t.beginCommand_startedExact
      rw [hr] at hrx hexact'
      obtain rfl := exec_inj htick (exec_tick_of_returns hm hdone hs hrx)
      obtain rfl := exec_inj htmo (exec_tmo_of_active ((recvPhase_go_mode hr).trans hmt))
      exact timeoutPhase_agrees_iff hexact hexact'

/-! The outputs of the phases (R135) -/

/-- What a send phase adds to the outputs: at most one NEW datagram, and START only with it. -/
theorem sendPhase_outputs (s : State) : ∃ (news : List Datagram) (a : List TimerCmd),
    (sendPhase s).state.tx = s.tx ++ news.map (TxKind.new, ·) ∧ (sendPhase s).state.tmr = s.tmr ++ a ∧
    news.length ≤ 1 ∧ a ∈ [[], [TimerCmd.start]] ∧ (a ≠ [] → news ≠ []) := by
  rcases sendPhase_cases s with ⟨_, h⟩ | ⟨_, _, h⟩ | ⟨_, _, _, h⟩ | ⟨_, _, _, h⟩ <;> rw [h]
  case inr.inr.inr =>
    refine ⟨[frameData s.nextSeqNum s.env.askChunk.1], if s.base = s.nextSeqNum then [.start] else [],
      transmitChunk_tx _ s.askChunk.2, ?_, Nat.le_refl 1, ?_, fun _ => List.cons_ne_nil _ _⟩
    · by_cases hb : s.base = s.nextSeqNum <;> simp [State.tmr, transmitChunk_eq, hb]
    · by_cases hb : s.base = s.nextSeqNum <;> simp [hb]
  all_goals exact ⟨[], [], by simp [State.tx], by simp [State.tmr], Nat.zero_le 1, by simp, fun h => absurd rfl h⟩

theorem recvPhase_tmr (s : State) : ∃ b : List TimerCmd,
    (recvPhase s).state.tmr = s.tmr ++ b ∧ b ∈ [[], [TimerCmd.start], [TimerCmd.stop]] := by
  rcases recvPhase_cases s with ⟨_, h⟩ | ⟨_, _, _, h⟩ | ⟨_, _, _, _, _, h⟩ | ⟨r, _, _, _, _, h⟩ <;> rw [h]
  case inr.inr.inr =>
    refine ⟨[if toU16 (r.ackNum.toNat + 1) = s.nextSeqNum then .stop else .start], ?_, ?_⟩
    · simp [State.tmr, retimeAfterAck_eq]
    · by_cases hb : toU16 (r.ackNum.toNat + 1) = s.nextSeqNum <;> simp [hb]
  all_goals exact ⟨[], by simp [State.tmr], by simp⟩

/-- What a timeout phase adds: nothing, or the window's copies and START, and then the timer was armed. -/
theorem timeoutPhase_outputs (s : State) :
    ((timeoutPhase s).state.tx = s.tx ∧ (timeoutPhase s).state.tmr = s.tmr) ∨
    (s.timerArmed = true ∧ (timeoutPhase s).state.tx = s.tx ++ s.windowCopies.map (TxKind.retx, ·) ∧
      (timeoutPhase s).state.tmr = s.tmr ++ [.start]) := by
  rcases timeoutPhase_cases s with ⟨_, h⟩ | ⟨_, _, _, h⟩ | ⟨ha, _, _, h⟩ <;> rw [h]
  · exact .inl ⟨rfl, rfl⟩
  · exact .inl ⟨rfl, rfl⟩
  · exact .inr ⟨ha, retransmitWindow_tx s.askExpired.2, retransmitWindow_tmr s.askExpired.2⟩

/-! The window's copies -/

theorem State.windowCopies_length (s : State) : s.windowCopies.length = s.outstanding := by
  simp [State.windowCopies]

theorem State.windowCopies_of_eq {s t : State} (hp : t.params = s.params) (hb : t.base = s.base)
    (hn : t.nextSeqNum = s.nextSeqNum) (ho : t.orb = s.orb) (he : t.orbEpoch = s.orbEpoch) :
    t.windowCopies = s.windowCopies := by
  simp only [State.windowCopies, State.outstanding, State.ringRead, hp, hb, hn, ho, he]

/-- The stored copies carry the numbers of the window, in order. -/
theorem State.storedCopies.windowCopies_numbers {s : State} (h : s.storedCopies) :
    s.windowCopies.map (fun d => d.seqNum.toNat) = List.range' s.base.toNat (s.nextSeqNum.toNat - s.base.toNat) := by
  refine List.ext_getElem (by simp [State.windowCopies_length, State.outstanding]) fun j hj _ => ?_
  have hlt : s.base.toNat + j < s.nextSeqNum.toNat := by
    simp only [List.length_map, State.windowCopies_length, State.outstanding] at hj
    omega
  obtain ⟨c, _, hread⟩ := h (s.base.toNat + j) (Nat.le_add_right _ _) hlt
  simp [State.windowCopies, State.ringRead_of_read? hread, frameData, toNat_toU16_of_lt hlt]

theorem State.Inv.outstanding_le {s : State} (h : s.Inv) : s.outstanding ≤ s.params.W := by
  have hW := h.window.2
  rw [State.outstanding]
  omega

/-- An armed timer has something to resend (R23). -/
theorem State.outstanding_ne_zero {s : State} (hw : s.windowBound) (ht : s.timerExact) (ha : s.timerArmed = true) :
    s.outstanding ≠ 0 := by
  have hle := hw.1
  have hne : s.base.toNat ≠ s.nextSeqNum.toNat := fun h => ht.mp ha (BitVec.eq_of_toNat_eq h)
  rw [State.outstanding]
  omega

/-- The order of R135: NEW before RETX, and the timer events of the three phases in turn, the last with what is
resent. -/
structure State.OrderedOutputs (x : State) (news resent : List Datagram) (a b c : List TimerCmd) : Prop where
  tx : x.tx = news.map (TxKind.new, ·) ++ resent.map (TxKind.retx, ·)
  tmr : x.tmr = a ++ b ++ c
  news_le : news.length ≤ 1
  send : a ∈ [[], [TimerCmd.start]] ∧ (a ≠ [] → news ≠ [])
  recv : b ∈ [[], [TimerCmd.start], [TimerCmd.stop]]
  resent_eq : resent ≠ [] → resent = x.windowCopies
  timeout : c ∈ [[], [TimerCmd.start]] ∧ (c ≠ [] ↔ resent ≠ [])

/-- The outputs before the timeout phase. -/
theorem State.orderedOutputs_of_quiet {x : State} {news : List Datagram} {a b : List TimerCmd}
    (htx : x.tx = news.map (TxKind.new, ·)) (htmr : x.tmr = a ++ b) (hnews : news.length ≤ 1)
    (ha : a ∈ [[], [TimerCmd.start]] ∧ (a ≠ [] → news ≠ [])) (hb : b ∈ [[], [TimerCmd.start], [TimerCmd.stop]]) :
    x.OrderedOutputs news [] a b [] where
  tx := by rw [htx, List.map_nil, List.append_nil]
  tmr := by rw [htmr, List.append_nil]
  news_le := hnews
  send := ha
  recv := hb
  resent_eq h := absurd rfl h
  timeout := by simp

/-- A timeout phase adds its outputs at the end. -/
theorem State.OrderedOutputs.timeoutPhase {v : State} {news : List Datagram} {a b : List TimerCmd}
    (h : v.OrderedOutputs news [] a b []) (hw : v.windowBound) (ht : v.timerExact) :
    ∃ resent c, (timeoutPhase v).state.OrderedOutputs news resent a b c := by
  obtain ⟨htx, htmr, hnews, hsend, hrecv, _⟩ := h
  rcases timeoutPhase_outputs v with ⟨htx', htmr'⟩ | ⟨harmed, htx', htmr'⟩
  · refine ⟨[], [], State.orderedOutputs_of_quiet ?_ ?_ hnews hsend hrecv⟩
    · rw [htx', htx, List.map_nil, List.append_nil]
    · rw [htmr', htmr, List.append_nil]
  · obtain ⟨hp, _, hb, hn, _, _, _, ho, _, _, he⟩ := timeoutPhase_frame v
    have hne : v.windowCopies ≠ [] :=
      List.ne_nil_of_length_pos (v.windowCopies_length ▸ Nat.pos_of_ne_zero (State.outstanding_ne_zero hw ht harmed))
    refine ⟨v.windowCopies, [.start], ?_, ?_, hnews, hsend, hrecv, fun _ => ?_, by simp, by simp [hne]⟩
    · rw [htx', htx, List.map_nil, List.append_nil]
    · rw [htmr', htmr, List.append_nil]
    · exact (State.windowCopies_of_eq hp hb hn ho he).symm

theorem exec_tick_outputs {s x : State} (hinv : s.Inv) (hm : s.mode = .active) (hd : s.done = false)
    (hx : exec .tick s = .next x) : ∃ news resent a b c, x.OrderedOutputs news resent a b c := by
  obtain ⟨news, a, htx, htmr, hnews, ha, hwith⟩ := sendPhase_outputs s.beginCommand
  have hwin : s.beginCommand.windowBound ∧ s.beginCommand.timerExact := ⟨hinv.window, hinv.timer⟩
  have hwin' := window_timer_kept.sendPhase s.beginCommand hm hwin
  have htx0 : s.beginCommand.tx = [] := rfl
  have htmr0 : s.beginCommand.tmr = [] := rfl
  rw [htx0, List.nil_append] at htx
  rw [htmr0, List.nil_append] at htmr
  rcases exec_tick_cases hm hd hx with hs | ⟨u, hs, hr⟩ | ⟨u, v, hs, hr, rfl⟩ <;> rw [hs] at htx htmr hwin'
  · exact ⟨news, [], a, [], [],
      State.orderedOutputs_of_quiet htx (htmr.trans (List.append_nil a).symm) hnews ⟨ha, hwith⟩ (by simp)⟩
  all_goals
    obtain ⟨b, htmr', hb⟩ := recvPhase_tmr u
    have htx' := recvPhase_tx u
    have hwin'' := window_timer_kept.recvPhase u ((sendPhase_go_mode hs).trans hm) hwin'
    rw [hr] at htmr' htx' hwin''
    have hquiet := State.orderedOutputs_of_quiet (htx'.trans htx) (htmr'.trans (congrArg (· ++ b) htmr)) hnews
      ⟨ha, hwith⟩ hb
  · exact ⟨news, [], a, b, [], hquiet⟩
  · obtain ⟨resent, c, h⟩ := hquiet.timeoutPhase hwin''.1 hwin''.2
    exact ⟨news, resent, a, b, c, h⟩

theorem exec_host_epoch {i : Instr} {s t : State} (ht : exec i s = .next t) :
    t.host = s.host ∧ t.orbEpoch = s.orbEpoch := by
  refine exec_keeps (fun u => u.host = s.host ∧ u.orbEpoch = s.orbEpoch) ht ⟨rfl, rfl⟩ (fun _ _ _ => ⟨rfl, rfl⟩)
    (fun _ => ⟨rfl, rfl⟩) (fun _ => ?_) (fun u _ hu => ?_) (fun u _ hu => ?_) (fun u _ hu => ?_) (fun _ _ => ⟨rfl, rfl⟩)
  · rcases openPhase_cases s.beginCommand with ⟨_, he⟩ | ⟨_, he⟩ <;> rw [he] <;> exact ⟨rfl, rfl⟩
  · obtain ⟨_, _, _, hh, he⟩ := sendPhase_frame u
    exact ⟨hh.trans hu.1, he.trans hu.2⟩
  · obtain ⟨_, _, _, _, _, hh, he, _⟩ := recvPhase_frame u
    exact ⟨hh.trans hu.1, he.trans hu.2⟩
  · obtain ⟨_, _, _, _, _, _, _, _, _, hh, he⟩ := timeoutPhase_frame u
    exact ⟨hh.trans hu.1, he.trans hu.2⟩

/-- Settles O49: the phases append their outputs in turn, and what is resent are the copies of the end state's window,
which meets the invariant. -/
theorem tickOutputOrder : Obligations.TickOutputOrder := by
  intro s x hinv hm hd hx
  have hdone := s.done_eq_false_iff.mpr hd
  obtain ⟨news, resent, a, b, c, h⟩ := exec_tick_outputs hinv hm hdone hx
  have hinv' := exec_inv hinv hx
  have hp : x.params = s.params := by
    have hx' := hx
    rw [exec_eq_commandFlow] at hx'
    injection hx' with hx'
    exact hx' ▸ (params_kept s.params).commandFlow .tick rfl
  obtain ⟨hhost, hepoch⟩ := exec_host_epoch hx
  refine ⟨news, resent, a, b, c, h.tx, h.news_le, ?_, fun hne => ?_, h.tmr, h.send.1, h.recv, h.timeout.1, h.send.2,
    h.timeout.2, hp, exec_rdData_eq_none hx nofun, hhost, hepoch, ?_⟩
  · by_cases hne : resent = []
    · simp [hne]
    · rw [h.resent_eq hne, State.windowCopies_length, ← hp]
      exact hinv'.outstanding_le
  · rw [h.resent_eq hne]
    exact hinv'.copies.windowCopies_numbers
  · rcases exec_mode_cases hx with hst | ⟨_, hf, _⟩ | ⟨hi, _⟩ | ⟨_, hd', _⟩
    · exact .inl hst
    · exact .inr hf
    · cases hi
    · simp [hdone] at hd'

end Sys2Proof.Machine
end

section
/-! PROOFS. What every command leaves alone: the rest of the state at a fault (60_exceptions.md rule R123), the order
of the pointers (10_state.md rules R14 to R16), the terminal datagram (44_session_control.md rule R97) and the ports
that its rules do not name (70_reset_and_hazards.md rule R137). -/

namespace Sys2Proof.Machine

/-! Faults (R106, R123) -/

/-- `t` is `s` after a fault with a code: only the mode, the code and the answers asked differ. -/
def State.FaultsOnly (s t : State) : Prop :=
  t.faultCode ≠ .none ∧ t = { s with env := t.env, mode := .faulted, faultCode := t.faultCode }

theorem State.faultsOnly_enterFault (s : State) (e : Env) {c : FaultCode} (h : c ≠ .none) :
    s.FaultsOnly (({ s with env := e } : State).enterFault c) := ⟨h, rfl⟩

theorem openPhase_faultsOnly {s : State} (hf : (openPhase s).state.mode = .faulted) :
    s.FaultsOnly (openPhase s).state := by
  rcases openPhase_cases s with ⟨_, he⟩ | ⟨_, he⟩ <;> rw [he] at hf ⊢
  · cases hf
  · exact s.faultsOnly_enterFault _ (by decide)

theorem sendPhase_faultsOnly {s : State} (hm : s.mode ≠ .faulted) (hf : (sendPhase s).state.mode = .faulted) :
    s.FaultsOnly (sendPhase s).state := by
  rcases sendPhase_cases s with ⟨_, he⟩ | ⟨_, _, he⟩ | ⟨_, _, _, he⟩ | ⟨_, _, _, he⟩
  case inr.inl => exact he ▸ s.faultsOnly_enterFault s.env (by decide)
  case inr.inr.inl => exact he ▸ s.faultsOnly_enterFault _ (by decide)
  all_goals
    rw [he] at hf
    exact absurd ((sendPhase_go_mode he).symm.trans hf) hm

theorem recvPhase_faultsOnly {s : State} (hm : s.mode ≠ .faulted) (hf : (recvPhase s).state.mode = .faulted) :
    s.FaultsOnly (recvPhase s).state := by
  rcases recvPhase_cases s with ⟨_, he⟩ | ⟨_, _, _, he⟩ | ⟨_, _, _, _, _, he⟩ | ⟨_, _, _, _, _, he⟩
  case inr.inr.inl => exact he ▸ s.faultsOnly_enterFault _ (by decide)
  all_goals
    rw [he] at hf
    exact absurd ((recvPhase_go_mode he).symm.trans hf) hm

/-- Settles O55: the mode check and the phases of OPEN, SEND and RECV fault by fault entry alone; no other command
reaches FAULTED. -/
theorem faultEntryChangesOnlyModeAndCode : Obligations.FaultEntryChangesOnlyModeAndCode := by
  intro i s t hi hm ht hf
  rcases exec_cases ht with rfl | ⟨c, hc, _, _, rfl⟩ | ⟨_, _, _, _, rfl⟩ | ⟨_, _, rfl⟩ | ⟨_, _, _, rfl⟩ |
    ⟨_, _, rfl⟩ | ⟨_, _, rfl⟩ | ⟨_, _, rfl⟩ | ⟨hi', _⟩
  · exact absurd hf hm
  · exact ⟨hc, rfl⟩
  · exact absurd hf hm
  · exact openPhase_faultsOnly hf
  · cases hf
  · exact sendPhase_faultsOnly hm hf
  · exact recvPhase_faultsOnly hm hf
  · obtain ⟨_, hmode, _⟩ := timeoutPhase_frame s.beginCommand
    exact absurd (hmode.symm.trans hf) hm
  · exact absurd hi' hi

/-! The pointers in a session (R14, R15, R16) -/

/-- In ACTIVE the base does not go back, and the window bound stays. -/
theorem exec_base_le {i : Instr} {s t : State} (hm : s.mode = .active) (hw : s.windowBound) (ht : exec i s = .next t) :
    s.base.toNat ≤ t.base.toNat ∧ t.windowBound := by
  have hstart : s.base.toNat ≤ s.base.toNat ∧ s.windowBound := ⟨Nat.le_refl _, hw⟩
  refine exec_keeps (fun u => s.base.toNat ≤ u.base.toNat ∧ u.windowBound) ht hstart (fun _ _ _ => hstart)
    (fun _ => hstart) (fun hidle => by simp [hm] at hidle) (fun u _ hu => ⟨?_, sendPhase_windowBound hu.2⟩)
    (fun u _ hu => ⟨hu.1.trans (recvPhase_base_le u), recvPhase_windowBound hu.2⟩)
    (fun u _ hu => ⟨?_, timeoutPhase_windowBound hu.2⟩) (fun _ _ => hstart)
  · obtain ⟨_, hbase, _⟩ := sendPhase_frame u
    rw [hbase]
    exact hu.1
  · obtain ⟨_, _, hbase, _⟩ := timeoutPhase_frame u
    rw [hbase]
    exact hu.1

/-- In ACTIVE a command takes one number or none: OPEN faults there. -/
theorem exec_next_of_active {i : Instr} {s t : State} (hm : s.mode = .active) (ht : exec i s = .next t) :
    t.nextSeqNum = s.nextSeqNum ∨ t.nextSeqNum.toNat = s.nextSeqNum.toNat + 1 := by
  rcases exec_numbers ht with ⟨_, _, hnext⟩ | ⟨_, c, hc⟩
  · by_cases hi : i = .openSession
    · subst hi
      obtain rfl := exec_inj ht (exec_openSession_of_session (.inl hm))
      exact .inl rfl
    · exact .inl (hnext hi)
  · exact .inr hc.nextSeqNum

/-- Settles O56. -/
theorem pointersNeverGoBack : Obligations.PointersNeverGoBack := by
  intro s t i hm hw ht
  obtain ⟨hbase, hle, _⟩ := exec_base_le hm hw ht
  refine ⟨hbase, hle, exec_next_of_active hm ht, fun ha => ?_⟩
  rcases exec_sends ht with ⟨c, hc⟩ | hnothing
  · exact absurd (ha.symm.trans hc.unfinished) nofun
  · exact (hnothing.finished hm ha).1

/-! The terminal datagram (R97) -/

/-- No terminal datagram is among the outputs. -/
def State.NoTerminal (s : State) : Prop := ∀ d, .tx .term d ∉ s.events

theorem State.beginCommand_noTerminal (s : State) : s.beginCommand.NoTerminal := fun _ => List.not_mem_nil

theorem State.NoTerminal.of_tx {s t : State} (h : s.NoTerminal) (htx : t.tx = s.tx) : t.NoTerminal := by
  intro d hd
  rw [← State.mem_tx, htx, State.mem_tx] at hd
  exact h d hd

theorem sendPhase_noTerminal {s : State} (h : s.NoTerminal) : (sendPhase s).state.NoTerminal := by
  rcases sendPhase_cases s with ⟨_, he⟩ | ⟨_, _, he⟩ | ⟨_, _, _, he⟩ | ⟨_, _, _, he⟩ <;> rw [he]
  case inr.inr.inr =>
    intro d hd
    rw [Flow.state_go, ← State.mem_tx, transmitChunk_tx] at hd
    have hold : (TxKind.term, d) ∈ s.askChunk.2.tx := by simpa using hd
    exact h d (State.mem_tx.mp hold)
  all_goals exact h

theorem timeoutPhase_noTerminal {s : State} (h : s.NoTerminal) : (timeoutPhase s).state.NoTerminal := by
  rcases timeoutPhase_outputs s with ⟨htx, _⟩ | ⟨_, htx, _⟩
  · exact h.of_tx htx
  · intro d hd
    rw [← State.mem_tx, htx] at hd
    have hold : (TxKind.term, d) ∈ s.tx := by simpa using hd
    exact h d (State.mem_tx.mp hold)

/-- A command emits no terminal datagram, or it is TICK or TERM in Done. -/
theorem exec_terminal_cases {i : Instr} {s t : State} (ht : exec i s = .next t) :
    t.NoTerminal ∨ ((i = .tick ∨ i = .term) ∧ s.mode = .active ∧ s.done = true ∧
      t = (termPhase s.beginCommand).state) := by
  have hstart := s.beginCommand_noTerminal
  have hsent := sendPhase_noTerminal hstart
  rcases exec_cases ht with rfl | ⟨_, _, _, _, rfl⟩ | ⟨_, _, _, _, rfl⟩ | ⟨_, _, rfl⟩ | hterm | ⟨_, _, rfl⟩ |
    ⟨_, _, rfl⟩ | ⟨_, _, rfl⟩ | ⟨rfl, hm, hd⟩
  · exact .inl hstart
  · exact .inl hstart
  · exact .inl hstart
  · exact .inl (hstart.of_tx (openPhase_tx _))
  · exact .inr hterm
  · exact .inl hsent
  · exact .inl (hstart.of_tx (recvPhase_tx _))
  · exact .inl (timeoutPhase_noTerminal hstart)
  · rcases exec_tick_cases hm hd ht with hs | ⟨u, hs, hr⟩ | ⟨u, v, hs, hr, rfl⟩ <;> rw [hs] at hsent
    · exact .inl hsent
    · exact .inl (hsent.of_tx (by simpa [hr] using recvPhase_tx u))
    · exact .inl (timeoutPhase_noTerminal (hsent.of_tx (by simpa [hr] using recvPhase_tx u)))

/-- Settles O58: only the terminal phase emits one; outside ACTIVE no command runs a phase but OPEN's. -/
theorem terminalDatagramSentAtMostOnce : Obligations.TerminalDatagramSentAtMostOnce := by
  refine ⟨fun i s t d ht hd => ?_, fun i s t hm ht => ?_⟩
  · rcases exec_terminal_cases ht with hnone | ⟨hi, hm, hdone, rfl⟩
    · exact absurd hd (hnone d)
    · obtain ⟨ha, hb⟩ := s.done_iff.mp hdone
      obtain rfl : d = frameTerm s.nextSeqNum := by simpa [termPhase_eq] using hd
      exact ⟨hi, hm, ha, hb, rfl, rfl, rfl⟩
  · rcases exec_cases ht with rfl | ⟨_, _, _, _, rfl⟩ | ⟨_, _, _, _, rfl⟩ | ⟨_, _, rfl⟩ | ⟨_, ha, _⟩ | ⟨_, ha, _⟩ |
      ⟨_, ha, _⟩ | ⟨_, ha, _⟩ | ⟨_, ha, _⟩
    case inr.inr.inr.inl =>
      rcases openPhase_cases s.beginCommand with ⟨_, he⟩ | ⟨_, he⟩ <;> rw [he] <;> rfl
    case inl | inr.inl | inr.inr.inl => rfl
    all_goals exact absurd ha hm

/-! The ports (R9, R11, R42) -/

theorem Env.askStreamOk_snd_eq (e : Env) :
    ∃ n, e.askStreamOk.2 = { e with streamOk := e.streamOk.tail, draws := n } := by
  obtain ⟨_ | _, _, _, _, _⟩ := e <;> exact ⟨_, rfl⟩

theorem Env.askChunk_snd_eq (e : Env) : ∃ n, e.askChunk.2 = { e with chunk := e.chunk.tail, draws := n } := by
  obtain ⟨_, _ | _, _, _, _⟩ := e <;> exact ⟨_, rfl⟩

theorem Env.askRx_snd_eq (e : Env) : ∃ n, e.askRx.2 = { e with rx := e.rx.tail, draws := n } := by
  obtain ⟨_, _, _ | _, _, _⟩ := e <;> exact ⟨_, rfl⟩

theorem Env.askExpired_snd_eq (e : Env) :
    ∃ n, e.askExpired.2 = { e with tmrExpired := e.tmrExpired.tail, draws := n } := by
  obtain ⟨_, _, _, _ | _, _⟩ := e <;> exact ⟨_, rfl⟩

/-- From `e` to `f` each port was asked at most once, and only under its condition: `o` for stream_ok, `c` for the
chunk, `r` for RX, `x` for tmr_expired. -/
structure Env.AskedOnly (e f : Env) (o c r x : Prop) : Prop where
  streamOk : f.streamOk = e.streamOk ∨ (f.streamOk = e.streamOk.tail ∧ o)
  chunk : f.chunk = e.chunk ∨ (f.chunk = e.chunk.tail ∧ c)
  rx : f.rx = e.rx ∨ (f.rx = e.rx.tail ∧ r)
  tmrExpired : f.tmrExpired = e.tmrExpired ∨ (f.tmrExpired = e.tmrExpired.tail ∧ x)

theorem Env.AskedOnly.refl (e : Env) (o c r x : Prop) : e.AskedOnly e o c r x :=
  ⟨.inl rfl, .inl rfl, .inl rfl, .inl rfl⟩

theorem Env.AskedOnly.mono {e f : Env} {o c r x o' c' r' x' : Prop} (h : e.AskedOnly f o c r x) (ho : o → o')
    (hc : c → c') (hr : r → r') (hx : x → x') : e.AskedOnly f o' c' r' x' where
  streamOk := h.streamOk.imp_right (.imp_right ho)
  chunk := h.chunk.imp_right (.imp_right hc)
  rx := h.rx.imp_right (.imp_right hr)
  tmrExpired := h.tmrExpired.imp_right (.imp_right hx)

/-- The phases of a TICK ask different ports. -/
theorem Env.AskedOnly.tick {e f g k : Env} {c r x : Prop} (hs : e.AskedOnly f False c False False)
    (hr : f.AskedOnly g False False r False) (hx : g.AskedOnly k False False False x) :
    e.AskedOnly k False c r x := by
  obtain ⟨so, sc, sr, sx⟩ := hs
  obtain ⟨ro, rc, rr, rx⟩ := hr
  obtain ⟨xo, xc, xr, xx⟩ := hx
  simp only [and_false, or_false] at so sr sx ro rc rx xo xc xr
  constructor
  · exact .inl (xo.trans (ro.trans so))
  · rwa [xc, rc]
  · rwa [xr, ← sr]
  · rwa [← sx, ← rx]

theorem openPhase_asked (s : State) : s.env.AskedOnly (openPhase s).state.env True False False False := by
  have henv : (openPhase s).state.env = s.env.askStreamOk.2 := by
    rcases openPhase_cases s with ⟨_, he⟩ | ⟨_, he⟩ <;> rw [he] <;> rfl
  obtain ⟨n, hn⟩ := s.env.askStreamOk_snd_eq
  rw [henv, hn]
  exact ⟨.inr ⟨rfl, trivial⟩, .inl rfl, .inl rfl, .inl rfl⟩

theorem sendPhase_asked (s : State) : s.env.AskedOnly (sendPhase s).state.env False
    (s.filling = true ∧ s.nextSeqNum ≠ 0xFFFF#16) False False := by
  obtain ⟨n, hn⟩ := s.env.askChunk_snd_eq
  have hask (hf : s.filling = true) (hlim : s.nextSeqNum ≠ 0xFFFF#16) : s.env.AskedOnly s.env.askChunk.2 False
      (s.filling = true ∧ s.nextSeqNum ≠ 0xFFFF#16) False False :=
    hn ▸ ⟨.inl rfl, .inr ⟨rfl, hf, hlim⟩, .inl rfl, .inl rfl⟩
  rcases sendPhase_cases s with ⟨_, he⟩ | ⟨_, _, he⟩ | ⟨hf, hlim, _, he⟩ | ⟨hf, hlim, _, he⟩ <;> rw [he]
  · exact .refl _ _ _ _ _
  · exact .refl _ _ _ _ _
  · exact hask hf hlim
  · rw [transmitChunk_eq]
    exact hask hf hlim

theorem recvPhase_asked (s : State) : s.env.AskedOnly (recvPhase s).state.env False False True False := by
  have henv : (recvPhase s).state.env = s.env.askRx.2 := by
    rcases recvPhase_cases s with ⟨_, he⟩ | ⟨_, _, _, he⟩ | ⟨_, _, _, _, _, he⟩ | ⟨_, _, _, _, _, he⟩ <;> rw [he]
    case inr.inr.inr => rw [retimeAfterAck_eq, Flow.state_go]; rfl
    all_goals rfl
  obtain ⟨n, hn⟩ := s.env.askRx_snd_eq
  rw [henv, hn]
  exact ⟨.inl rfl, .inl rfl, .inr ⟨rfl, trivial⟩, .inl rfl⟩

theorem timeoutPhase_asked (s : State) : s.env.AskedOnly (timeoutPhase s).state.env False False False
    (s.timerArmed = true ∧ s.startedThisCmd = false) := by
  obtain ⟨n, hn⟩ := s.env.askExpired_snd_eq
  have hask (ha : s.timerArmed = true) (hs : s.startedThisCmd = false) : s.env.AskedOnly s.env.askExpired.2 False False
      False (s.timerArmed = true ∧ s.startedThisCmd = false) :=
    hn ▸ ⟨.inl rfl, .inl rfl, .inl rfl, .inr ⟨rfl, ha, hs⟩⟩
  rcases timeoutPhase_cases s with ⟨_, he⟩ | ⟨ha, hs, _, he⟩ | ⟨ha, hs, _, he⟩ <;> rw [he]
  · exact .refl _ _ _ _ _
  · exact hask ha hs
  · exact hask ha hs

/-- A fault in TICK's send phase or receive phase ends the asking; the timer it asks was armed before the command. -/
theorem exec_tick_asked {s t : State} (hm : s.mode = .active) (hd : s.done = false) (ht : exec .tick s = .next t) :
    s.env.AskedOnly t.env False (s.filling = true ∧ s.nextSeqNum ≠ 0xFFFF#16) True (s.timerArmed = true) := by
  have hsend := sendPhase_asked s.beginCommand
  have hgate := sendPhase_gateKept s.beginCommand
  rcases exec_tick_cases hm hd ht with hs | ⟨u, hs, hr⟩ | ⟨u, v, hs, hr, rfl⟩ <;> rw [hs] at hsend hgate
  · exact hsend.mono id id False.elim False.elim
  · have hrecv := recvPhase_asked u
    rw [hr] at hrecv
    exact hsend.tick hrecv (.refl _ _ _ _ _)
  · have hrecv := recvPhase_asked u
    have hgate' := recvPhase_gateKept u
    rw [hr] at hrecv hgate'
    have htimer : v.timerArmed = true ∧ v.startedThisCmd = false → s.timerArmed = true :=
      fun ⟨ha, hstarted⟩ => ((hgate.trans hgate').gate ha hstarted).1
    exact hsend.tick hrecv ((timeoutPhase_asked v).mono id id id htimer)

theorem exec_asked {i : Instr} {s t : State} (ht : exec i s = .next t) : s.env.AskedOnly t.env
    (i = .openSession ∧ s.mode = .idle)
    ((i = .send ∨ i = .tick) ∧ s.mode = .active ∧ s.filling = true ∧ s.nextSeqNum ≠ 0xFFFF#16)
    ((i = .recv ∨ i = .tick) ∧ s.mode = .active)
    ((i = .tmo ∨ i = .tick) ∧ s.mode = .active ∧ s.timerArmed = true) := by
  rcases exec_cases ht with rfl | ⟨_, _, _, _, rfl⟩ | ⟨_, _, _, _, rfl⟩ | ⟨hi, hm, rfl⟩ | ⟨_, _, _, rfl⟩ |
    ⟨hi, hm, rfl⟩ | ⟨hi, hm, rfl⟩ | ⟨hi, hm, rfl⟩ | ⟨hi, hm, hd⟩
  · exact .refl _ _ _ _ _
  · exact .refl _ _ _ _ _
  · exact .refl _ _ _ _ _
  · exact (openPhase_asked s.beginCommand).mono (fun _ => ⟨hi, hm⟩) False.elim False.elim False.elim
  · exact .refl _ _ _ _ _
  · exact (sendPhase_asked s.beginCommand).mono False.elim (fun h => ⟨.inl hi, hm, h⟩) False.elim False.elim
  · exact (recvPhase_asked s.beginCommand).mono False.elim False.elim (fun _ => ⟨.inl hi, hm⟩) False.elim
  · exact (timeoutPhase_asked s.beginCommand).mono False.elim False.elim False.elim (fun h => ⟨.inl hi, hm, h.1⟩)
  · subst hi
    exact (exec_tick_asked hm hd ht).mono False.elim (fun h => ⟨.inr rfl, hm, h⟩) (fun _ => ⟨.inr rfl, hm⟩)
      (fun h => ⟨.inr rfl, hm, h⟩)

/-- Settles O59. -/
theorem portsAskedOnlyWhereTheRulesSay : Obligations.PortsAskedOnlyWhereTheRulesSay := by
  intro i s t ht
  obtain ⟨hstream, hchunk, hrx, hexpired⟩ := exec_asked ht
  rw [State.filling_iff, and_assoc] at hchunk
  exact ⟨hstream, hchunk, hrx, hexpired⟩

end Sys2Proof.Machine
end

section
/-! PROOFS. Liveness (70_reset_and_hazards.md rules R139, R141): under the fairness premises every TICK of a run keeps
the session and none moves a pointer back, so from some TICK on the pointers rest, and they rest in Done only. -/

namespace Sys2Proof.Machine

/-- What R141 says of the answers that a TICK finds: RX gives no valid ACK of a number unsent when it is polled, and in
Filling the stream has a number left and a chunk that fits. -/
structure State.FairAnswers (s : State) : Prop where
  rx : ∃ a rest, s.env.rx = a :: rest ∧ ∀ r, a = some r → ackValid r = true → r.ackNum.toNat < s.polledNext
  chunk : s.filling = true → s.nextSeqNum ≠ 0xFFFF#16 ∧
    ∃ c rest, s.env.chunk = c :: rest ∧ c.bytes.length ≤ s.params.M

/-- How far the transfer is: every datagram sent and every number acknowledged counts. -/
def State.progress (s : State) : Nat := s.base.toNat + s.nextSeqNum.toNat

theorem State.progress_le (s : State) : s.progress ≤ 2 * 65535 := by
  have hb := s.base.isLt
  have hn := s.nextSeqNum.isLt
  rw [State.progress]
  omega

/-- Under fair answers the send phase returns, with nextSeqNum where the receive phase finds it. -/
theorem sendPhase_of_fair {s : State} (h : s.FairAnswers) : ∃ u, sendPhase s = .go u ∧ u.base = s.base ∧
    u.nextSeqNum.toNat = s.polledNext ∧ u.env.rx = s.env.rx := by
  cases hf : s.filling with
  | false => exact ⟨s, sendPhase_of_not_filling hf, rfl, by simp [State.polledNext, hf], rfl⟩
  | true =>
    obtain ⟨hn, c, rest, hc, hlen⟩ := h.chunk hf
    have hask : s.env.askChunk = (c, { s.env with chunk := rest }) := by simp [Env.askChunk, hc]
    refine ⟨_, sendPhase_of_chunk hf hn hask hlen, ?_⟩
    simp [transmitChunk_eq, State.polledNext, hf, toNat_succ_of_ne hn]

/-- A receive phase that finds no valid ACK of an unsent number returns; an ACK from the base on moves the base. -/
theorem recvPhase_of_fair {u : State} {a : Option Datagram} {rest : List (Option Datagram)} (hrx : u.env.rx = a :: rest)
    (hsent : ∀ r, a = some r → ackValid r = true → r.ackNum.toNat < u.nextSeqNum.toNat) :
    ∃ v, recvPhase u = .go v ∧ v.nextSeqNum = u.nextSeqNum ∧ u.base.toNat ≤ v.base.toNat ∧
      ∀ r, a = some r → ackValid r = true → u.base.toNat ≤ r.ackNum.toNat → u.base.toNat < v.base.toNat := by
  have hask : u.env.askRx = (a, { u.env with rx := rest }) := by simp [Env.askRx, hrx]
  by_cases hack : ∃ r, a = some r ∧ ackValid r = true ∧ u.base.toNat ≤ r.ackNum.toNat
  · obtain ⟨r, rfl, hv, hb⟩ := hack
    have hn := hsent r rfl hv
    have hbase := State.advanced_base_toNat (e := { u.env with rx := rest }) hn
    refine ⟨_, recvPhase_of_ack hask hv hb hn, by rw [State.advanced_eq hn], by omega, fun _ _ _ _ => by omega⟩
  · have hdrop : ∀ r, a = some r → ackValid r = false ∨ r.ackNum.toNat < u.base.toNat := by
      intro r hr
      by_contra hkeep
      simp only [not_or, Bool.not_eq_false, Nat.not_lt] at hkeep
      exact hack ⟨r, hr, hkeep⟩
    exact ⟨_, recvPhase_of_drop hask hdrop, rfl, Nat.le_refl _, fun r hr hv hb => absurd ⟨r, hr, hv, hb⟩ hack⟩

/-- The TICK makes progress: it sends a datagram, or it takes an ACK from the base on. -/
def State.tickProgresses (s : State) : Prop :=
  s.filling = true ∨ ∃ r rest, s.env.rx = some r :: rest ∧ ackValid r = true ∧ s.base.toNat ≤ r.ackNum.toNat

/-- A TICK outside Done under fair answers stays in the session and moves no pointer back. -/
theorem exec_tick_of_fair {s t : State} (hm : s.mode = .active) (hd : s.done = false) (h : s.FairAnswers)
    (ht : exec .tick s = .next t) :
    t.mode = .active ∧ s.progress ≤ t.progress ∧ (s.tickProgresses → s.progress < t.progress) := by
  obtain ⟨a, rest, hrx, hsent⟩ := h.rx
  obtain ⟨u, hs, hbu, hnu, hrxu⟩ := sendPhase_of_fair (s := s.beginCommand) ⟨h.rx, h.chunk⟩
  have hnu' : u.nextSeqNum.toNat = s.polledNext := hnu
  have hbu' : u.base.toNat = s.base.toNat := congrArg BitVec.toNat hbu
  obtain ⟨v, hr, hnv, hbv, hadv⟩ := recvPhase_of_fair (hrxu.trans hrx) (hnu'.symm ▸ hsent)
  obtain ⟨_, hmode, hbt, hnt, _⟩ := timeoutPhase_frame v
  obtain rfl := exec_inj ht (exec_tick_of_returns hm hd hs hr)
  have hpolled : s.nextSeqNum.toNat ≤ s.polledNext ∧ (s.filling = true → s.nextSeqNum.toNat < s.polledNext) := by
    cases hf : s.filling <;> simp [State.polledNext, hf]
  have hprogress : (timeoutPhase v).state.progress = v.base.toNat + s.polledNext := by
    rw [State.progress, hbt, hnt, hnv, hnu']
  rw [hprogress, State.progress]
  refine ⟨hmode.trans ((recvPhase_go_mode hr).trans ((sendPhase_go_mode hs).trans hm)), by omega, ?_⟩
  rintro (hf | ⟨r, rest', hrx', hv, hb⟩)
  · have := hpolled.2 hf
    omega
  · obtain ⟨rfl, rfl⟩ : a = some r ∧ rest = rest' := by simpa using hrx.symm.trans hrx'
    have := hadv r rfl hv (by omega)
    omega

/-- A window that is neither Filling nor Done has datagrams outstanding. -/
theorem State.outstanding_of_not_filling_not_done {s : State} (hf : s.filling = false) (hd : s.done = false) :
    s.base ≠ s.nextSeqNum := by
  intro hb
  have hW := s.params.W_bounds.1
  cases ha : s.allSent with
  | false =>
    have hfull : s.filling = true := s.filling_iff.mpr ⟨by rw [hb]; omega, ha⟩
    simp [hf] at hfull
  | true =>
    have hdone : s.done = true := s.done_iff.mpr ⟨ha, hb⟩
    simp [hd] at hdone

/-- A bounded measure is largest somewhere. -/
theorem exists_largest {f : Nat → Nat} {B : Nat} (h : ∀ n, f n ≤ B) : ∃ N, ∀ n, f n ≤ f N := by
  have hbdd : BddAbove (Set.range f) := ⟨B, by rintro _ ⟨n, rfl⟩; exact h n⟩
  obtain ⟨N, hN⟩ := Nat.sSup_mem (Set.range_nonempty f) hbdd
  exact ⟨N, fun n => hN ▸ le_csSup hbdd ⟨n, rfl⟩⟩

/-- Settles O60: were Done never found, every TICK would keep the session; where the progress is largest the window is
neither Filling nor empty, and the ACK that must come for it makes more progress. -/
theorem fairTicksReachTerminated : Obligations.FairTicksReachTerminated := by
  intro σ _ hm0 htick hack hrx hchunk
  by_contra hnever
  have hdone : ∀ n, (σ n).mode = .active → (σ n).done = false := by
    intro n hm
    by_contra hd
    have hd' : (σ n).done = true := by simpa using hd
    have hterm := termPhase_tx (σ n).beginCommand
    exact hnever ⟨n, _, hm, hd', exec_tick_of_done hm hd', rfl, hterm⟩
  have hnext : ∀ n, (σ n).mode = .active → (σ (n + 1)).mode = .active ∧ (σ n).progress ≤ (σ (n + 1)).progress ∧
      ((σ n).tickProgresses → (σ n).progress < (σ (n + 1)).progress) := by
    intro n hm
    obtain ⟨t, l, e, ht, hσ⟩ := htick n hm
    have hfair := exec_tick_of_fair hm (hdone n hm) ⟨hrx n hm, hchunk n hm⟩ ht
    rw [hσ]
    exact hfair
  have hactive : ∀ n, (σ n).mode = .active := fun n => Nat.rec hm0 (fun n hm => (hnext n hm).1) n
  have hmono : Monotone fun n => (σ n).progress := monotone_nat_of_le_succ fun n => (hnext n (hactive n)).2.1
  obtain ⟨N, hlargest⟩ := exists_largest fun n => (σ n).progress_le
  have hrest : ∀ m, N ≤ m → ¬ (σ m).tickProgresses := by
    intro m hNm hmore
    have hlt := (hnext m (hactive m)).2.2 hmore
    have hle := hmono hNm
    have hle' := hlargest (m + 1)
    simp only at hle
    omega
  have hfull : (σ N).filling = false := Bool.eq_false_iff.mpr fun hf => hrest N (Nat.le_refl N) (.inl hf)
  have hopen := State.outstanding_of_not_filling_not_done hfull (hdone N (hactive N))
  obtain ⟨m, r, rest, hNm, hr, hv, hb, _⟩ := hack N (hactive N) hopen
  exact hrest m hNm (.inr ⟨r, rest, hr, hv, hb⟩)

end Sys2Proof.Machine
end
